-- ==== Sys2Proof/Word.lean ====
section
/-! DEFINITION. The words of the NL620: bytes, and the 48-bit counts of nanoseconds that the interval clock
and station time are (R20, R23). -/

namespace Sys2Proof

/-- A byte of any of the chip's formats (chapter 11). -/
abbrev Byte := BitVec 8

/-- A reading of the interval clock or of station time: 48 bits of nanoseconds (R20, R23). -/
abbrev Time := BitVec 48

/-- The difference of two clock readings, taken modulo 2^48 (R21). -/
def elapsed (now start : Time) : Nat := (now - start).toNat

/-- A timer started at `start` with duration `d` has expired once (IC − start) mod 2^48 ≥ d (R21). -/
def expired (now start : Time) (d : Nat) : Bool := d ≤ elapsed now start

end Sys2Proof
end

