-- ==== Sys2Proof/Machine/Bytes.lean ====
section
/-! DEFINITION. Byte order and the check: multi-byte numbers are sent most significant byte first, signed numbers
in two's complement (chapter 11), and the CRC-32 of R173. -/

namespace Sys2Proof.Machine

/-- The `n` bytes of a number, most significant first; a number too large for them loses its high bytes. -/
def beBytes : Nat → Nat → List Byte
  | 0, _ => []
  | n + 1, v => beBytes n (v / 256) ++ [BitVec.ofNat 8 v]

/-- The number whose bytes, most significant first, these are. -/
def ofBytes (l : List Byte) : Nat := l.foldl (fun a b => a * 256 + b.toNat) 0

/-- A signed number in `n` bytes of two's complement. -/
def beSigned (n : Nat) (v : Int) : List Byte := beBytes n (v % (256 ^ n : Nat)).toNat

/-- A 48-bit stamp in 6 bytes. -/
def beTime (t : Time) : List Byte := beBytes 6 t.toNat

/-- The 48-bit stamp of 6 bytes. -/
def ofTime (l : List Byte) : Time := BitVec.ofNat 48 (ofBytes l)

/-- One bit of a byte as a flag. -/
def bitByte (i : Nat) (b : Bool) : Byte := if b then BitVec.ofNat 8 (2 ^ i) else 0

/-- One step of the CRC-32 register, least significant bit first (R173): 0xEDB88320 is the generator 0x04C11DB7
with its bits in the order in which they are taken. -/
def crcShift (r : BitVec 32) : BitVec 32 :=
  if r.getLsbD 0 then (r >>> 1) ^^^ 0xEDB88320#32 else r >>> 1

/-- The register after one byte. -/
def crcByte (r : BitVec 32) (b : Byte) : BitVec 32 :=
  crcShift (crcShift (crcShift (crcShift (crcShift (crcShift (crcShift (crcShift (r ^^^ b.setWidth 32))))))))

/-- The check of a frame body (R173): the register preset to ones, complemented at the end. -/
def crc32 (body : List Byte) : BitVec 32 := ~~~ (body.foldl crcByte 0xFFFFFFFF#32)

/-- The four check bytes as sent, least significant byte first (R173). -/
def checkBytes (c : BitVec 32) : List Byte := (beBytes 4 c.toNat).reverse

end Sys2Proof.Machine
end

