-- ==== Sys2Proof/Config.lean ====
section
/-! DEFINITION. The sizes the manual fixes for the NL620, and the values it leaves open: opaque constants, of
which nothing can be proved. A free value's first argument is the count of draws that State holds, so that two
draws need not agree (log 13, log 14, log 27). -/

namespace Sys2Proof.Config

/-- Buffers in the pool (R115). -/
def poolSize : Nat := 256
/-- Entries of one Egress Queue, its four classes together (R126). -/
def egressLimit : Nat := 64
/-- Entries of the Delivery Queue (R142). -/
def deliveryLimit : Nat := 64
/-- Entries of the Race Ring (R110). -/
def ringLimit : Nat := 64
/-- Entries of the Cost Table (R84). -/
def costEntries : Nat := 16
/-- The cost that means "no route" (chapter 5). -/
def unreachable : Nat := 16777215
/-- The largest cost that still names a route (R89). -/
def costCap : Nat := 16777214
/-- The largest route delay (R8). -/
def routeDelayLimit : Nat := 4294967295
/-- The interval by which the interval clock advances at one tick, in ns. DESIGN CHOICE (log 1). -/
def tickNs : Nat := 1

/-- FREE VALUE (log 13): the bytes TABLE_READ shows for the fields that a free Seen Table slot does not have.
R98 and R180 state only its origin, 0. -/
opaque freeSlotByte : Nat → Nat → Nat → Byte

/-- FREE VALUE (log 13): the bytes TABLE_READ shows for the start reading and the duration of a stopped timer,
by draw, port and byte. R180 states only the running flag. -/
opaque stoppedTimerByte : Nat → Nat → Nat → Byte

/-- FREE VALUE (log 14): the role bits of the station status while the stored ROLE is none of the three roles,
which only CONFIG allows. R180 codes the three roles alone. -/
opaque unnamedRoleBits : Nat → Byte → BitVec 2

/-- FREE VALUE (log 14): which of the six group orders (0..5) a group order code of 6 or 7 stands for. No run follows
such a code, for it can be stored in CONFIG alone, where the order of power-on is in force (log 31). R181 says
only that these codes fail START. -/
opaque unnamedGroupOrder : Nat → Byte → Fin 6

/-- FREE VALUE (log 27): byte 0 of an ingress request that ended before its first byte was complete.
R178 gives the outcome only where tests 1 and 2 do not look at the kind. -/
opaque missingRequestByte : Nat → Byte

end Sys2Proof.Config
end

