-- ==== Sys2Proof/Syntax.lean ====
section
/-! DEFINITION. The commands and events of the NL620: one constructor of `Instr` per row of
spec/opcode_table.json, with what each carries across the pins. -/

namespace Sys2Proof

/-- The five line ports (R4): 0 to 3 radio, 4 fibre. -/
inductive Port where
  | p0 | p1 | p2 | p3 | p4
  deriving DecidableEq, Repr

/-- The number of a port, 0..4. -/
def Port.toNat : Port → Nat
  | .p0 => 0 | .p1 => 1 | .p2 => 2 | .p3 => 3 | .p4 => 4

/-- The ports in ascending order. -/
def Port.all : List Port := [.p0, .p1, .p2, .p3, .p4]

/-- A frame as a Line Interface gets it from its equipment at the end of an arrival (R10, R173): the body's
bytes, the check value carried in the link framing, and whether the equipment ended it with an abort. -/
structure Frame where
  body    : List Byte
  check   : BitVec 32
  aborted : Bool
  deriving DecidableEq, Repr

/-- The commands of the block, one per row of the table.

A service-line command carries the device code `dev` of its first header byte, for the chip follows only a
transfer whose code is its own (R161); `mask` and `station` are the port mask and the station bit of the second
header byte where the command uses them (R162, R179); `clocks` is how many whole bytes the master clocks out of
a read after its header (R163). -/
inductive Instr where
  /-- POWER_ON (R19): the power-on reset pin is asserted. -/
  | powerOn
  /-- POWER_ON_RESET_RELEASE (R20, R161): the pin is released, with the straps DC1 and DC0 at `dc`. -/
  | powerOnResetRelease (dc : BitVec 2)
  /-- ARRIVAL_START (R11): the first body byte of a frame whose class byte is `cls`. -/
  | arrivalStart (p : Port) (cls : Byte)
  /-- TRAFFIC_ARRIVAL_COMPLETION (R13): the end of a traffic frame, or of a frame of unknown class (R11). -/
  | trafficArrivalCompletion (p : Port) (f : Frame)
  /-- HAIL_ARRIVAL_COMPLETION (R16): the end of a HAIL. -/
  | hailArrivalCompletion (p : Port) (f : Frame)
  /-- MODEM_STATUS_WORD (R17, R61, R177): the bytes that crossed the status channel. -/
  | modemStatusWord (p : Port) (word : List Byte)
  /-- HAIL_TIMER_EXPIRY (R41). -/
  | hailTimerExpiry (p : Port)
  /-- SILENCE_EXPIRY (R52). -/
  | silenceExpiry (p : Port)
  /-- HOLD_EXPIRY (R71). -/
  | holdExpiry (p : Port)
  /-- TRIAL_EXPIRY (R71). -/
  | trialExpiry (p : Port)
  /-- SETTLE_EXPIRY (R72). -/
  | settleExpiry (p : Port)
  /-- FADE_TIME_ACCRUAL (R81). -/
  | fadeTimeAccrual (p : Port)
  /-- DEPARTURE_COMPLETION (R18). -/
  | departureCompletion (p : Port)
  /-- TIN_RISING_EDGE (R28). -/
  | tinRisingEdge
  /-- SCHEDULE_MATCH (R35). -/
  | scheduleMatch
  /-- INGRESS_COMPLETION (R136, R178): the request's bytes, and whether it was ended with an abort. -/
  | ingressCompletion (bytes : List Byte) (aborted : Bool)
  /-- REPLY_END (R134). -/
  | replyEnd
  /-- DELIVERY_READY (R143). -/
  | deliveryReady
  /-- DELIVERY_COMPLETION (R145). -/
  | deliveryCompletion
  /-- START (R170, R171). -/
  | start (dev : BitVec 2)
  /-- REJOIN (R172). -/
  | rejoin (dev : BitVec 2)
  /-- FORCE (R76): the port mask and the action bytes received. -/
  | force (dev : BitVec 2) (mask : BitVec 5) (actions : List Byte)
  /-- ARM_SCHEDULE (R33, R179): target ST, action byte, port mask. -/
  | armSchedule (dev : BitVec 2) (target : Time) (action : Byte) (mask : BitVec 5)
  /-- DISARM (R36). -/
  | disarm (dev : BitVec 2)
  /-- TIME_STEP (R25): the signed 4-byte offset. -/
  | timeStep (dev : BitVec 2) (offset : BitVec 32)
  /-- TIME_TRIM (R24): the signed 4-byte trim. -/
  | timeTrim (dev : BitVec 2) (trim : BitVec 32)
  /-- CLEAR_COUNTERS (R152). -/
  | clearCounters (dev : BitVec 2) (mask : BitVec 5) (station : Bool)
  /-- CLEAR_ROLLOVER (R153, R179): the bytes of the list part received. -/
  | clearRollover (dev : BitVec 2) (mask : BitVec 5) (station : Bool) (sets : List Byte)
  /-- ACK_NOTICES (R158): the byte of kinds. -/
  | ackNotices (dev : BitVec 2) (kinds : Byte)
  /-- UNKNOWN_COMMAND (R167): a command code that names none of the ten commands. -/
  | unknownCommand (dev : BitVec 2) (code : Byte)
  /-- CONFIG_WRITE (R168, R179): the body, a string of item records. -/
  | configWrite (dev : BitVec 2) (body : List Byte)
  /-- STATUS_READ (R156, R164). -/
  | statusRead (dev : BitVec 2) (mask : BitVec 5) (clocks : Nat)
  /-- COUNTER_READ (R151). -/
  | counterRead (dev : BitVec 2) (mask : BitVec 5) (station : Bool) (clocks : Nat)
  /-- TABLE_READ, selector LINK (R164). -/
  | tableReadLink (dev : BitVec 2) (mask : BitVec 5) (clocks : Nat)
  /-- TABLE_READ, selector COST (R164). -/
  | tableReadCost (dev : BitVec 2) (clocks : Nat)
  /-- TABLE_READ, selector SEEN (R114). -/
  | tableReadSeen (dev : BitVec 2) (clocks : Nat)
  /-- TABLE_READ, selector RING (R114). -/
  | tableReadRing (dev : BitVec 2) (clocks : Nat)
  /-- TABLE_READ, selector RACE (R112). -/
  | tableReadRace (dev : BitVec 2) (mask : BitVec 5) (clocks : Nat)
  /-- TABLE_READ, selector CONFIG (R181). -/
  | tableReadConfig (dev : BitVec 2) (clocks : Nat)
  /-- TABLE_READ with an unknown selector, 6 or 7 (R164). -/
  | tableReadUnknown (dev : BitVec 2) (clocks : Nat)
  /-- TIME_READ up to its latch point (R32). -/
  | timeRead (dev : BitVec 2)
  /-- TIME_READ_RELEASE (R30): the release of select of a TIME_READ, after `clocks` bytes of data. -/
  | timeReadRelease (clocks : Nat)
  /-- UNKNOWN_TRANSFER_TYPE (R162): a transfer of type 6 or 7, both header bytes complete. -/
  | unknownTransferType (dev : BitVec 2) (type : BitVec 3)
  /-- TRANSFER_CUT_SHORT (R162, R165). -/
  | transferCutShort
  /-- INGRESS_START (R134, R135). -/
  | ingressStart
  /-- DELIVERY_READY_WITHDRAWN (R145). -/
  | deliveryReadyWithdrawn
  deriving DecidableEq, Repr

end Sys2Proof
end

