-- ==== Sys2Proof/Machine/State.lean ====
section
/-! DEFINITION. The state of the NL620: one record per block of 00_scope.md's table, each with the pieces of state
the chapters give it, and `State.reset`, every piece at its power-on value. -/

namespace Sys2Proof.Machine

/-- Reasons a step stops with a fault. It has no constructor: no rule of the manual stops the chip. Safe and
unsafe do not arise. -/
inductive Fault where
  deriving DecidableEq, Repr

/-- Reasons a step is refused. -/
inductive Refusal where
  /-- Raised only by an arm of `exec` whose command has no meaning yet: no arm raises it. Safe. -/
  | notModelled (mnemonic : String)
  deriving DecidableEq, Repr

/-- One value per line port 0..4. -/
structure PerPort (α : Type) where
  p0 : α
  p1 : α
  p2 : α
  p3 : α
  p4 : α
  deriving DecidableEq, Repr

/-! ### Names -/

/-- The roles of a station, in the order of R2 (coded 0, 1, 2 by R175 and R181). -/
inductive Role where
  | source | floor | relay
  deriving DecidableEq, Repr

/-- The link states, in the order of R66 (coded 0..7 by R175). -/
inductive LinkState where
  | off | seeking | clear | degraded | faded | hold | trial | drained
  deriving DecidableEq, Repr

/-- The causes of FADED (R66). -/
inductive FadeCause where
  | rain | silent
  deriving DecidableEq, Repr

/-- The kinds of traffic message (R7). -/
inductive Kind where
  | flood | aimed
  deriving DecidableEq, Repr

/-- The urgency of a message, 0..3, which is its egress queue class (R7, R126). -/
inductive Urgency where
  | u0 | u1 | u2 | u3
  deriving DecidableEq, Repr

/-- Where a message entered this station: a line port, or the local port (R110, R115). -/
inductive Origin where
  | line (p : Port)
  | loc
  deriving DecidableEq, Repr

/-- The action of the schedule channel and of FORCE (R33, R76). -/
inductive Action where
  | drain | undrain
  deriving DecidableEq, Repr

/-- The station states (R171). -/
inductive StationState where
  | config | service
  deriving DecidableEq, Repr

/-- The result codes (R166), in the order of R180's coding. -/
inductive Result where
  | accepted | acceptedClamped | refusedState | refusedOperand | unknown | configInvalid
  deriving DecidableEq, Repr

/-- The causes of a refused ingress request (R136), in the order of R178's coding. -/
inductive IngressCause where
  | notInService | role | length | target | noRoute | noBuffer
  deriving DecidableEq, Repr

/-- The verdicts of the Arrival Filter (section 6.2). -/
inductive Verdict where
  | first | dup | stale | echo | noSlot
  deriving DecidableEq, Repr

/-- The settings of FIBRE_FLOOD (R120, R181). -/
inductive FibreFlood where
  | never | always | whenRadioLost
  deriving DecidableEq, Repr

/-- The 16 counters of a port, in the order of R148's table. -/
inductive PortCounter where
  | rxGood | rxCheckErr | rxNoBuffer | hailRx | won | lost | stale | spent
  | txTraffic | queueDrop | ageDrop | flushed | reaimed | fadeCount | fadeTimeUs | delayOutlier
  deriving DecidableEq, Repr

/-- The 8 counters of the station, in the order of R148's table. -/
inductive StationCounter where
  | ingressOk | ingressRefused | delivered | deliveryDrop | noSlot | echo | originRestart | noRouteDrop
  deriving DecidableEq, Repr

/-- The six notice kinds, in ACK_NOTICES bit order (R179). -/
inductive NoticeKind where
  | linkDown | linkUp | routeChange | noRoute | countWrap | timeEvent
  deriving DecidableEq, Repr

/-! ### Messages -/

/-- A stamp: interval clock and station time read at one instant (R26). -/
structure Stamp where
  ic : Time
  st : Time
  deriving DecidableEq, Repr

/-- The route header of a traffic message (R7). -/
structure RouteHeader where
  kind        : Kind
  origin      : Nat
  startNumber : Byte
  sequence    : BitVec 16
  target      : Nat
  urgency     : Urgency
  budget      : Nat
  hops        : Nat
  originStamp : Time
  routeDelay  : Nat
  inexact     : Bool
  length      : Nat
  deriving DecidableEq, Repr

/-- The echo group of a HAIL (R9). -/
structure Echo where
  sequence  : Byte
  departure : Time
  receipt   : Time
  deriving DecidableEq, Repr

/-- A HAIL (R9). -/
structure Hail where
  sender      : Nat
  senderPort  : Port
  senderRole  : Role
  sequence    : Byte
  departure   : Time
  farMargin   : Int
  senderState : LinkState
  echo        : Option Echo
  vector      : List (Nat × Nat)
  deriving DecidableEq, Repr

/-- The record handed to the local equipment for a delivered message (R144). -/
structure DeliveryRecord where
  kind        : Kind
  origin      : Nat
  startNumber : Byte
  sequence    : BitVec 16
  target      : Nat
  urgency     : Urgency
  originStamp : Time
  length      : Nat
  payload     : List Byte
  hops        : Nat
  routeDelay  : Nat
  inexact     : Bool
  arrivalSt   : Time
  winning     : Origin
  deriving DecidableEq, Repr

/-- The reply to an ingress request (R137, R140). -/
inductive Reply where
  | refused (cause : IngressCause)
  | accepted (sequence : BitVec 16) (originStamp : Time) (copies : Nat)
  deriving DecidableEq, Repr

/-! ### Line Interfaces -/

/-- The frame in reception on a port (R11, R12, R19). -/
inductive Reception where
  /-- No frame that the Line Interface follows. -/
  | idle
  /-- A traffic frame written into the buffer of this number. -/
  | traffic (buf : Nat)
  /-- A traffic frame that found no free buffer (R12). -/
  | unstored
  /-- A HAIL in the HAIL frame store, with its arrival-start IC. -/
  | hail (arrival : Time)
  /-- A frame of unknown class (R11). -/
  | unknownClass
  /-- A traffic frame abandoned by REJOIN, holding its buffer until its completion (R19). -/
  | abandonedTraffic (buf : Nat)
  /-- A HAIL abandoned by REJOIN, in its frame store until its completion (R19). -/
  | abandonedHail
  /-- A frame of unknown class abandoned by REJOIN (R19). -/
  | abandonedUnknown
  deriving DecidableEq, Repr

/-- The frame in transmission on a port (R18). -/
inductive Transmission where
  | idle
  | hail (h : Hail)
  /-- A traffic copy: its buffer and the route header as handed out (R119). -/
  | traffic (buf : Nat) (header : RouteHeader)
  deriving DecidableEq, Repr

/-- One Line Interface. -/
structure LineInterface where
  rx : Reception
  tx : Transmission
  deriving DecidableEq, Repr

/-! ### Time Unit -/

/-- The schedule channel (section 2.5). -/
structure Schedule where
  armed  : Bool
  target : Time
  action : Action
  mask   : BitVec 5
  deriving DecidableEq, Repr

/-- The Time Unit (chapter 2). -/
structure TimeUnit where
  ic         : Time
  st         : Time
  /-- Fractional part of station time in units of 10^−9 ns (R23). -/
  frac       : Nat
  /-- Rate trim in parts per billion (R23). -/
  trim       : Int
  latest     : Option Stamp
  previous   : Option Stamp
  period     : Option Time
  edgesSeen  : Nat
  missed     : Nat
  runMark    : Bool
  /-- The hold place (R30). -/
  held       : Option Stamp
  schedule   : Schedule
  deriving DecidableEq, Repr

/-! ### Link Monitor -/

/-- What the state timer is running as (R66). -/
inductive TimerKind where
  | hold | trial | settle
  deriving DecidableEq, Repr

/-- The state timer while it runs (R66); the duration is in ns. -/
structure StateTimer where
  kind     : TimerKind
  start    : Time
  duration : Nat
  deriving DecidableEq, Repr

/-- The record of the last HAIL received, which is the echo source (R38). -/
structure LastHail where
  sequence  : Byte
  departure : Time
  receipt   : Time
  deriving DecidableEq, Repr

/-- A link record (R38, R66). Partner-drained and the effective margin are computed from it (log 16). -/
structure LinkRecord where
  enabled        : Bool
  /-- Neighbour station and port: both or none (R38). -/
  neighbour      : Option (Nat × Port)
  neighbourRole  : Option Role
  neighbourState : Option LinkState
  hailDue        : Bool
  lastSent       : Byte
  lastHail       : Option LastHail
  /-- Start reading of the hail timer (R41). -/
  hailTimer      : Option Time
  /-- Start reading of the silence timer (R51). -/
  silence        : Option Time
  /-- The delay estimate P (R56). -/
  delay          : Option Nat
  outlierRun     : Nat
  far            : Option Int
  profile        : BitVec 3
  /-- The near margin M (R63). -/
  near           : Option Int
  state          : LinkState
  fadeCause      : Option FadeCause
  /-- The hold duration in ms (R72). -/
  holdDuration   : Option Nat
  stateTimer     : Option StateTimer
  lastChange     : Time
  /-- The fade time remainder in ns (R81). -/
  fadeRemainder  : Nat
  deriving DecidableEq, Repr

/-! ### Route Computer -/

/-- A Cost Table entry (R84). -/
structure CostEntry where
  destination : Nat
  heard       : PerPort Nat
  own         : Nat
  best        : Option Port
  second      : Option Port
  secondCost  : Nat
  deriving DecidableEq, Repr

/-- The Route Computer: the Cost Table in ascending destination, and the table full flag (R84). -/
structure RouteComputer where
  entries : List CostEntry
  full    : Bool
  deriving DecidableEq, Repr

/-! ### Arrival Filter -/

/-- A Seen Table slot that holds an origin (R98). Bit i of `window` marks the sequence H − i. -/
structure Slot where
  origin      : Nat
  startNumber : Byte
  highest     : BitVec 16
  window      : BitVec 512
  lastHeard   : Time
  deriving DecidableEq, Repr

/-- A Race Ring entry (R110). -/
structure RingEntry where
  origin      : Nat
  startNumber : Byte
  sequence    : BitVec 16
  winning     : Origin
  arrival     : Time
  deriving DecidableEq, Repr

/-- Race statistics of a port (R112). -/
structure RaceStats where
  sum     : Nat
  samples : Nat
  maximum : Nat
  deriving DecidableEq, Repr

/-- The Arrival Filter: slot 0, slots 1 to 15, the ring (oldest first) and the race statistics (chapter 6). -/
structure ArrivalFilter where
  own   : Slot
  slots : Vector (Option Slot) 15
  ring  : List RingEntry
  race  : PerPort RaceStats
  deriving DecidableEq, Repr

/-! ### Forwarding Engine -/

/-- A buffer in use (R115). -/
structure Buffer where
  id      : Nat
  header  : RouteHeader
  payload : List Byte
  stamp   : Stamp
  arrival : Origin
  used    : PerPort Bool
  refs    : Nat
  deriving DecidableEq, Repr

/-- An Egress Queue: the buffers its entries refer to, per class, oldest first (R126). -/
structure EgressQueue where
  c3 : List Nat
  c2 : List Nat
  c1 : List Nat
  c0 : List Nat
  deriving DecidableEq, Repr

/-- The Forwarding Engine: the buffers in use in rising number, every other of the 256 being free, and the
Egress Queues (chapter 7). -/
structure Forwarding where
  pool   : List Buffer
  queues : PerPort EgressQueue
  deriving DecidableEq, Repr

/-! ### Local Port Controller -/

/-- How the outward path ended what it last sent (R178): MODEL'S OWN record of an output (log 8). -/
inductive OutwardEnd where
  | normal | abort
  deriving DecidableEq, Repr

/-- The Local Port Controller (chapter 8). -/
structure LocalPort where
  nextSequence  : BitVec 16
  /-- The Delivery Queue, oldest first; its head is the delivery in progress while there is one (R143). -/
  queue         : List Nat
  delivering    : Option DeliveryRecord
  /-- The reply that is due or being sent (R134). -/
  reply         : Option Reply
  replySending  : Bool
  /-- The ingress request in progress, and whether it is to be discarded at its completion (R134). -/
  request       : Option Bool
  deliveryReady : Bool
  outwardEnd    : Option OutwardEnd
  deriving DecidableEq, Repr

/-! ### Service Line Controller -/

/-- An entry of the profile table (R60): threshold in half-dBm, signed, and line rate in Mbit/s. -/
structure Profile where
  threshold : BitVec 16
  rate      : BitVec 16
  deriving DecidableEq, Repr

/-- The configuration image: items 1 to 35, each as stored, in its width (R169, R181). -/
structure Image where
  stationNumber  : Byte
  role           : Byte
  startNumber    : Byte
  crossFeed      : Byte
  portEnable     : Byte
  floodMask      : Byte
  fibreFlood     : Byte
  fibreRate      : BitVec 16
  profiles       : Vector Profile 8
  hailInterval   : BitVec 16
  lossCount      : Byte
  delayJump      : BitVec 32
  marginShift    : Byte
  fade           : Byte
  hysteresis     : Byte
  degrade        : Byte
  holdBase       : BitVec 16
  holdMax        : BitVec 16
  trialWindow    : BitVec 16
  refLen         : BitVec 16
  degradePenalty : BitVec 32
  pairClass      : Byte
  pairWindow     : BitVec 32
  ageLimit       : BitVec 16
  initBudget     : Byte
  originIdle     : BitVec 16
  noticeEnable   : Byte
  noticeOrder    : Byte
  deriving DecidableEq, Repr

/-- The transfer that set the last-command result: its type, and its command code for a COMMAND (R166). -/
structure TransferName where
  type : BitVec 3
  code : Byte
  deriving DecidableEq, Repr

/-- The last-command result (R166). -/
structure LastResult where
  transfer : Option TransferName
  result   : Result
  failing  : Option Nat
  deriving DecidableEq, Repr

/-- The Service Line Controller (chapter 10). -/
structure ServiceLine where
  deviceCode : BitVec 2
  image      : Image
  station    : StationState
  /-- The transfer decoder between steps: a TIME_READ of this chip is between latch and release (R30). -/
  timeRead   : Bool
  /-- The snapshot buffer (R163). -/
  snapshot   : List Byte
  /-- The bytes driven during the last read transfer addressed to this chip: an output (log 8). -/
  dataOut    : List Byte
  last       : LastResult
  deriving DecidableEq, Repr

/-! ### Statistics and Notice Unit -/

/-- A counter with its two marks (R148). -/
structure Counter where
  value         : BitVec 32
  rollover      : Bool
  wrapSinceRead : Bool
  deriving DecidableEq, Repr

/-- A notice kind's fields (R154); the detail is coded as R180 codes it. -/
structure Notice where
  pending        : Bool
  reported       : Bool
  setSinceReport : Bool
  detail         : Byte
  deriving DecidableEq, Repr

/-- The Notice Set. -/
structure NoticeSet where
  linkDown    : Notice
  linkUp      : Notice
  routeChange : Notice
  noRoute     : Notice
  countWrap   : Notice
  timeEvent   : Notice
  deriving DecidableEq, Repr

/-- The Statistics and Notice Unit (chapter 9). -/
structure Statistics where
  ports   : PerPort (Vector Counter 16)
  station : Vector Counter 8
  notices : NoticeSet
  deriving DecidableEq, Repr

/-! ### The machine -/

/-- The state of the chip. `pending` is the queue of waiting commands; `draws` counts the free values drawn
(MODEL'S OWN, log 13). -/
structure State where
  pending   : List Instr
  draws     : Nat
  resetHeld : Bool
  li  : PerPort LineInterface
  tu  : TimeUnit
  lm  : PerPort LinkRecord
  rc  : RouteComputer
  af  : ArrivalFilter
  fe  : Forwarding
  lpc : LocalPort
  slc : ServiceLine
  snu : Statistics
  deriving DecidableEq, Repr

/-! ### Power-on values -/

/-- A Line Interface at power-on (R19, R132). -/
def LineInterface.powerOn : LineInterface := ⟨.idle, .idle⟩

/-- The Time Unit at power-on (section 2.6). -/
def TimeUnit.powerOn : TimeUnit :=
  { ic := 0, st := 0, frac := 0, trim := 0, latest := none, previous := none, period := none,
    edgesSeen := 0, missed := 0, runMark := false, held := none,
    schedule := { armed := false, target := 0, action := .drain, mask := 0 } }

/-- A link record at power-on (R39, R66), with both margins at `margin`: none, or +127 on port 4 (R59). -/
def LinkRecord.powerOn (margin : Option Int) : LinkRecord :=
  { enabled := false, neighbour := none, neighbourRole := none, neighbourState := none, hailDue := false,
    lastSent := 255, lastHail := none, hailTimer := none, silence := none, delay := none, outlierRun := 0,
    far := margin, profile := 0, near := margin, state := .off, fadeCause := none, holdDuration := none,
    stateTimer := none, lastChange := 0, fadeRemainder := 0 }

/-- The Arrival Filter at power-on (R100, R110, R113). -/
def ArrivalFilter.powerOn : ArrivalFilter :=
  { own := { origin := 0, startNumber := 0, highest := 65535, window := 0, lastHeard := 0 },
    slots := .replicate 15 none, ring := [],
    race := ⟨⟨0, 0, 0⟩, ⟨0, 0, 0⟩, ⟨0, 0, 0⟩, ⟨0, 0, 0⟩, ⟨0, 0, 0⟩⟩ }

/-- An empty Egress Queue. -/
def EgressQueue.empty : EgressQueue := ⟨[], [], [], []⟩

/-- The Forwarding Engine at power-on (R132). -/
def Forwarding.powerOn : Forwarding := { pool := [], queues := ⟨.empty, .empty, .empty, .empty, .empty⟩ }

/-- The Local Port Controller at power-on (R147); delivery ready is the equipment's, not shown (log 6). -/
def LocalPort.powerOn : LocalPort :=
  { nextSequence := 0, queue := [], delivering := none, reply := none, replySending := false, request := none,
    deliveryReady := false, outwardEnd := none }

/-- The configuration image's defaults (R169, in the codings of R181). -/
def Image.defaults : Image :=
  { stationNumber := 0, role := 2, startNumber := 0, crossFeed := 0, portEnable := 0x0F, floodMask := 0x0F,
    fibreFlood := 2, fibreRate := 1000, profiles := .replicate 8 ⟨-240, 0⟩, hailInterval := 500, lossCount := 4,
    delayJump := 2000, marginShift := 2, fade := 6, hysteresis := 8, degrade := 24, holdBase := 200,
    holdMax := 12800, trialWindow := 500, refLen := 128, degradePenalty := 20000, pairClass := 4,
    pairWindow := 50000, ageLimit := 2000, initBudget := 10, originIdle := 2000, noticeEnable := 0x3F,
    noticeOrder := 0 }

/-- The Service Line Controller at power-on (R161, R166, R169). The transfer decoder stands between transfers: a
TIME_READ that POWER_ON interrupts is over, and its later release has no effect, which is a DESIGN CHOICE (log 29). -/
def ServiceLine.powerOn : ServiceLine :=
  { deviceCode := 0, image := .defaults, station := .config, timeRead := false, snapshot := [], dataOut := [],
    last := { transfer := none, result := .accepted, failing := none } }

/-- A counter at power-on (R148). -/
def Counter.zero : Counter := ⟨0, false, false⟩

/-- A notice kind at power-on (R154). -/
def Notice.empty : Notice := ⟨false, false, false, 0⟩

/-- The Notice Set at power-on and after REJOIN (R154). -/
def NoticeSet.empty : NoticeSet := ⟨.empty, .empty, .empty, .empty, .empty, .empty⟩

/-- The Statistics and Notice Unit at power-on (R148, R154). -/
def Statistics.powerOn : Statistics :=
  { ports := ⟨.replicate 16 .zero, .replicate 16 .zero, .replicate 16 .zero, .replicate 16 .zero,
      .replicate 16 .zero⟩,
    station := .replicate 8 .zero, notices := .empty }

/-- The machine right after the assertion of power-on reset: every block at its power-on value, the reset pin
still held (log 5), no command waiting. -/
def State.reset : State :=
  { pending := [], draws := 0, resetHeld := true,
    li := ⟨.powerOn, .powerOn, .powerOn, .powerOn, .powerOn⟩,
    tu := .powerOn,
    lm := ⟨.powerOn none, .powerOn none, .powerOn none, .powerOn none, .powerOn (some 127)⟩,
    rc := { entries := [], full := false },
    af := .powerOn, fe := .powerOn, lpc := .powerOn, slc := .powerOn, snu := .powerOn }

end Sys2Proof.Machine
end

