-- ==== Sys2Proof/Machine/Image.lean ====
section
/-! DEFINITION. The configuration image: what each stored item means, CONFIG_WRITE's item records (R168, R179),
the test of START (R170) and the image as TABLE_READ returns it (R181). -/

namespace Sys2Proof.Machine

/-! ### What the items mean -/

/-- The role coded by a byte (R181). -/
def Role.ofByte? (b : Byte) : Option Role :=
  match b.toNat with
  | 0 => some .source
  | 1 => some .floor
  | 2 => some .relay
  | _ => none

/-- The number of a role (R175, R181). -/
def Role.toNat : Role → Nat
  | .source => 0 | .floor => 1 | .relay => 2

/-- This station's number (R1). -/
def Image.number (g : Image) : Nat := g.stationNumber.toNat

/-- This station's role (R2). START passes only the three codes; any other is taken as RELAY (log 18). -/
def Image.roleOf (g : Image) : Role := (Role.ofByte? g.role).getD .relay

/-- An END station: SOURCE or FLOOR (R2). -/
def Image.isEnd (g : Image) : Bool := g.roleOf ≠ .relay

/-- CROSS_FEED. -/
def Image.crossFeeds (g : Image) : Bool := g.crossFeed ≠ 0

/-- Whether PORT_ENABLE holds the port (R4). -/
def Image.enables (g : Image) (p : Port) : Bool := g.portEnable.getLsbD p.toNat

/-- Whether FLOOD_MASK holds the port (R120). -/
def Image.floods (g : Image) (p : Port) : Bool := g.floodMask.getLsbD p.toNat

/-- FIBRE_FLOOD (R120, R181). START passes only the three codes; any other is taken as NEVER (log 18). -/
def Image.fibre (g : Image) : FibreFlood :=
  match g.fibreFlood.toNat with
  | 1 => .always
  | 2 => .whenRadioLost
  | _ => .never

/-- The entry of the profile table for a profile number (R60). -/
def Image.profile (g : Image) (n : BitVec 3) : Profile := g.profiles.get n.toFin

/-- HAIL_INTERVAL in ns. -/
def Image.hailNs (g : Image) : Nat := g.hailInterval.toNat * 1000
/-- The silence interval, LOSS_COUNT × HAIL_INTERVAL, in ns (R51). -/
def Image.silenceNs (g : Image) : Nat := g.lossCount.toNat * g.hailNs
/-- FADE (F), in half-dB (R65). -/
def Image.fadeLevel (g : Image) : Int := g.fade.toInt
/-- HYSTERESIS (H), in half-dB (R65). -/
def Image.hysteresisLevel (g : Image) : Int := g.hysteresis.toNat
/-- The restore level R = F + H (R65). -/
def Image.restoreLevel (g : Image) : Int := g.fadeLevel + g.hysteresisLevel
/-- DEGRADE (D), in half-dB (R65). -/
def Image.degradeLevel (g : Image) : Int := g.degrade.toInt
/-- HOLD_BASE in ms. -/
def Image.holdBaseMs (g : Image) : Nat := g.holdBase.toNat
/-- HOLD_MAX in ms. -/
def Image.holdMaxMs (g : Image) : Nat := g.holdMax.toNat
/-- TRIAL_WINDOW in ns. -/
def Image.trialNs (g : Image) : Nat := g.trialWindow.toNat * 1000000
/-- SETTLE = 32 × HOLD_BASE, in ns (R66, R72). -/
def Image.settleNs (g : Image) : Nat := 32 * g.holdBaseMs * 1000000
/-- AGE_LIMIT in ns (R127). -/
def Image.ageNs (g : Image) : Nat := g.ageLimit.toNat * 1000
/-- ORIGIN_IDLE in ns (R103). -/
def Image.idleNs (g : Image) : Nat := g.originIdle.toNat * 1000000
/-- Whether the kind in ACK_NOTICES bit `i` is enabled (R157). -/
def Image.enablesNotice (g : Image) (i : Nat) : Bool := g.noticeEnable.getLsbD i

/-! ### Item records -/

/-- The width of an item's value in bytes (R181), 0 for a number outside 1..35. -/
def itemWidth (i : Nat) : Nat :=
  if i = 0 ∨ 35 < i then 0
  else if i = 8 ∨ i = 17 ∨ i = 24 ∨ i = 25 ∨ i = 26 ∨ i = 27 ∨ i = 31 ∨ i = 33 then 2
  else if (9 ≤ i ∧ i ≤ 16) ∨ i = 19 ∨ i = 28 ∨ i = 30 then 4
  else 1

/-- The image with item `i` set to the value whose bytes these are; any value that fits the width is stored, and
a number outside 1..35 writes nothing (R168). -/
def Image.write (g : Image) (i : Nat) (value : List Byte) : Image :=
  let n := ofBytes value
  let b : Byte := BitVec.ofNat 8 n
  let h : BitVec 16 := BitVec.ofNat 16 n
  let w : BitVec 32 := BitVec.ofNat 32 n
  match i with
  | 1 => { g with stationNumber := b }
  | 2 => { g with role := b }
  | 3 => { g with startNumber := b }
  | 4 => { g with crossFeed := b }
  | 5 => { g with portEnable := b }
  | 6 => { g with floodMask := b }
  | 7 => { g with fibreFlood := b }
  | 8 => { g with fibreRate := h }
  | 17 => { g with hailInterval := h }
  | 18 => { g with lossCount := b }
  | 19 => { g with delayJump := w }
  | 20 => { g with marginShift := b }
  | 21 => { g with fade := b }
  | 22 => { g with hysteresis := b }
  | 23 => { g with degrade := b }
  | 24 => { g with holdBase := h }
  | 25 => { g with holdMax := h }
  | 26 => { g with trialWindow := h }
  | 27 => { g with refLen := h }
  | 28 => { g with degradePenalty := w }
  | 29 => { g with pairClass := b }
  | 30 => { g with pairWindow := w }
  | 31 => { g with ageLimit := h }
  | 32 => { g with initBudget := b }
  | 33 => { g with originIdle := h }
  | 34 => { g with noticeEnable := b }
  | 35 => { g with noticeOrder := b }
  | i =>
    let f : Profile := ⟨BitVec.ofNat 16 (ofBytes (value.take 2)), BitVec.ofNat 16 (ofBytes (value.drop 2))⟩
    if 9 ≤ i ∧ i ≤ 16 then { g with profiles := g.profiles.setIfInBounds (i - 9) f } else g

/-- What the decoder reads from the body of a CONFIG_WRITE (R179). -/
inductive ItemRecords where
  /-- Whole item records, in their order: item number and value bytes. -/
  | records (items : List (Nat × List Byte))
  /-- An item number outside 1..35 was met: no further record is read. -/
  | badItem
  /-- The transfer ended within a record. -/
  | cutShort
  deriving DecidableEq, Repr

/-- Reads item records; `fuel` bounds the number of records, for each takes at least two bytes. -/
def readItemRecords : Nat → List Byte → ItemRecords
  | _, [] => .records []
  | 0, _ :: _ => .cutShort
  | fuel + 1, i :: rest =>
    let w := itemWidth i.toNat
    if w = 0 then .badItem
    else if rest.length < w then .cutShort
    else
      match readItemRecords fuel (rest.drop w) with
      | .records items => .records ((i.toNat, rest.take w) :: items)
      | .badItem => .badItem
      | .cutShort => .cutShort

/-- The item records of a CONFIG_WRITE body. -/
def itemRecords (body : List Byte) : ItemRecords := readItemRecords body.length body

/-- Every record written in the order the records stand: the later record of an item stands (R168). -/
def Image.writeAll (g : Image) (items : List (Nat × List Byte)) : Image :=
  items.foldl (fun g r => g.write r.1 r.2) g

/-- The bytes of an entry of the profile table (R181). -/
def Profile.bytes (f : Profile) : List Byte := beBytes 2 f.threshold.toNat ++ beBytes 2 f.rate.toNat

/-- The image as TABLE_READ CONFIG returns it: every item's value in ascending item number (R164, R181). -/
def Image.bytes (g : Image) : List Byte :=
  [g.stationNumber, g.role, g.startNumber, g.crossFeed, g.portEnable, g.floodMask, g.fibreFlood]
  ++ beBytes 2 g.fibreRate.toNat
  ++ (g.profiles.toList.map Profile.bytes).flatten
  ++ beBytes 2 g.hailInterval.toNat ++ [g.lossCount] ++ beBytes 4 g.delayJump.toNat
  ++ [g.marginShift, g.fade, g.hysteresis, g.degrade]
  ++ beBytes 2 g.holdBase.toNat ++ beBytes 2 g.holdMax.toNat ++ beBytes 2 g.trialWindow.toNat
  ++ beBytes 2 g.refLen.toNat ++ beBytes 4 g.degradePenalty.toNat ++ [g.pairClass]
  ++ beBytes 4 g.pairWindow.toNat ++ beBytes 2 g.ageLimit.toNat ++ [g.initBudget]
  ++ beBytes 2 g.originIdle.toNat ++ [g.noticeEnable, g.noticeOrder]

/-! ### The test of START -/

/-- A profile in its range: threshold −240..0, rate 0 or 10..2,000 (R60). -/
def Profile.valid (f : Profile) : Bool :=
  -240 ≤ f.threshold.toInt && f.threshold.toInt ≤ 0 &&
  (f.rate = 0 || (10 ≤ f.rate.toNat && f.rate.toNat ≤ 2000))

/-- At least one profile with a rate other than 0, where a radio port is enabled (R170, item 16). -/
def Image.profilesServe (g : Image) : Bool :=
  g.portEnable &&& 0x0F#8 = 0 || g.profiles.toList.any (fun f => f.rate ≠ 0)

/-- Whether item `i` passes its test (R169, R170). Masks with a bit that names no member of their set are outside
their range: DEDUCED (log 11). Bits 7..6 of NOTICE_ORDER, to which R181 gives no meaning, fail its test when set:
DESIGN CHOICE (log 30). -/
def Image.itemValid (g : Image) (i : Nat) : Bool :=
  match i with
  | 1 => 1 ≤ g.number && g.number ≤ 63
  | 2 => g.role.toNat ≤ 2
  | 3 => true
  | 4 => g.crossFeed.toNat ≤ 1
  | 5 => g.portEnable.toNat < 32
  | 6 => g.floodMask.toNat < 16
  | 7 => g.fibreFlood.toNat ≤ 2
  | 8 => 10 ≤ g.fibreRate.toNat && g.fibreRate.toNat ≤ 10000
  | 16 => (g.profiles.get 7).valid && g.profilesServe
  | 17 => 100 ≤ g.hailInterval.toNat && g.hailInterval.toNat ≤ 10000 && g.hailInterval.toNat % 100 = 0
  | 18 => 2 ≤ g.lossCount.toNat && g.lossCount.toNat ≤ 15
  | 19 => 100 ≤ g.delayJump.toNat && g.delayJump.toNat ≤ 1000000
  | 20 => g.marginShift.toNat ≤ 4
  | 21 => -128 ≤ g.fadeLevel && g.fadeLevel ≤ 120
  | 22 => 1 ≤ g.hysteresisLevel && g.hysteresisLevel ≤ 40
  | 23 => g.fadeLevel < g.restoreLevel && g.restoreLevel ≤ g.degradeLevel
      && g.degradeLevel ≤ 127 - g.hysteresisLevel
  | 24 => 1 ≤ g.holdBaseMs && g.holdBaseMs ≤ 1000
  | 25 => g.holdBaseMs ≤ g.holdMaxMs && g.holdMaxMs ≤ 60000
  | 26 => 10 ≤ g.trialWindow.toNat && g.trialWindow.toNat ≤ 5000
  | 27 => 64 ≤ g.refLen.toNat && g.refLen.toNat ≤ 1024
  | 28 => g.degradePenalty.toNat ≤ 1000000
  | 29 => g.pairClass.toNat ≤ 4
  | 30 => g.pairWindow.toNat ≤ 1000000
  | 31 => 10 ≤ g.ageLimit.toNat && g.ageLimit.toNat ≤ 10000
  | 32 => 1 ≤ g.initBudget.toNat && g.initBudget.toNat ≤ 31
  | 33 => 1 ≤ g.originIdle.toNat && g.originIdle.toNat ≤ 10000
  | 34 => g.noticeEnable.toNat < 64
  | 35 => g.noticeOrder.toNat < 64 && (g.noticeOrder &&& 7#8).toNat ≤ 5
  | i => if h : 9 ≤ i ∧ i ≤ 15 then (g.profiles.get ⟨i - 9, by omega⟩).valid else true

/-- The item numbers, ascending. -/
def itemNumbers : List Nat :=
  [1, 2, 3, 4, 5, 6, 7, 8, 9, 10, 11, 12, 13, 14, 15, 16, 17, 18, 19, 20, 21, 22, 23, 24, 25, 26, 27, 28, 29, 30,
   31, 32, 33, 34, 35]

/-- The first item that fails its test, or none where the image is sound (R170). -/
def Image.firstFailing (g : Image) : Option Nat := itemNumbers.find? (fun i => ! g.itemValid i)

end Sys2Proof.Machine
end

