-- ==== Sys2Proof/WellFormed.lean ====
section
/-! DEFINITION. Well-formed commands: what the pins can carry for each row. -/

namespace Sys2Proof

open Machine

/-- A command code that names none of the ten commands (R167, R179). -/
def unknownCode (code : Byte) : Bool := code = 0 || 11 ≤ code.toNat

/-- A body of whole item records, or with an item number outside 1..35: not cut short (R165, R179). -/
def completeBody (body : List Byte) : Bool := itemRecords body ≠ .cutShort

/-- What the pins can carry: a status word has at most 3 bytes and a radio port (R17, R177); a request that was not
aborted has its first byte (R135); an unknown command has an unknown code (R167), an unknown type is 6 or 7 (R162),
and the item records of a CONFIG_WRITE are whole (R165). -/
def Instr.wellFormed : Instr → Bool
  | .modemStatusWord p word => p ≠ .p4 && word.length ≤ 3
  | .ingressCompletion bytes aborted => aborted || bytes ≠ []
  | .unknownCommand _ code => unknownCode code
  | .configWrite _ body => completeBody body
  | .unknownTransferType _ type => 6 ≤ type.toNat
  | .powerOn | .powerOnResetRelease _ | .arrivalStart _ _ | .trafficArrivalCompletion _ _
  | .hailArrivalCompletion _ _ | .hailTimerExpiry _ | .silenceExpiry _ | .holdExpiry _ | .trialExpiry _
  | .settleExpiry _ | .fadeTimeAccrual _ | .departureCompletion _ | .tinRisingEdge | .scheduleMatch | .replyEnd
  | .deliveryReady | .deliveryCompletion | .start _ | .rejoin _ | .force _ _ _ | .armSchedule _ _ _ _ | .disarm _
  | .timeStep _ _ | .timeTrim _ _ | .clearCounters _ _ _ | .clearRollover _ _ _ _ | .ackNotices _ _
  | .statusRead _ _ _ | .counterRead _ _ _ _ | .tableReadLink _ _ _ | .tableReadCost _ _ | .tableReadSeen _ _
  | .tableReadRing _ _ | .tableReadRace _ _ _ | .tableReadConfig _ _ | .tableReadUnknown _ _ | .timeRead _
  | .timeReadRelease _ | .transferCutShort | .ingressStart | .deliveryReadyWithdrawn => true

end Sys2Proof
end

