-- ==== Sys2Proof/Decode.lean ====
section
/-! DEFINITION. decodeTableWord: spec/opcode_table.json gives no row any bits, so no word spells a command (log 22).
And the service line's transfer decoder, with its encoder: the bytes of one transfer, as the master shifts them in,
give the commands of the table that the transfer stands for (R162, R165, R179). -/

namespace Sys2Proof

open Machine

/-- The command that a table word spells: none, for no row of the table has bits. -/
def decodeTableWord (_nbits _w : Nat) : Option Instr := none

/-! ### Headers -/

/-- The first header byte: device code in bits 7..6, transfer type in bits 2..0 (R179). -/
def headerByte (dev : BitVec 2) (type : Nat) : Byte := BitVec.ofNat 8 (dev.toNat * 64 + type)

/-- The device code of a first header byte. -/
def deviceOf (h : Byte) : BitVec 2 := BitVec.ofNat 2 (h.toNat / 64)

/-- The transfer type of a first header byte; bits 5..3 are not examined. -/
def typeOf (h : Byte) : Nat := h.toNat % 8

/-- The second header byte of a COMMAND or COUNTER_READ: station bit 7, port mask bits 4..0 (R179). -/
def maskByte (mask : BitVec 5) (station : Bool) : Byte :=
  BitVec.ofNat 8 ((if station then 128 else 0) + mask.toNat)

/-- The second header byte of a TABLE_READ: selector in bits 7..5, port mask in bits 4..0 (R179). -/
def selectorByte (selector : Nat) (mask : BitVec 5) : Byte := BitVec.ofNat 8 (selector * 32 + mask.toNat)

/-- The port mask of a second header byte. -/
def maskOf (h : Byte) : BitVec 5 := BitVec.ofNat 5 h.toNat

/-- The station bit of a second header byte. -/
def stationOf (h : Byte) : Bool := h.getLsbD 7

/-! ### Decoding -/

/-- A COMMAND body: a command code byte and the command's operands (R179). A body that ends before its fixed
operands is cut short; bytes beyond the operands are ignored (R165). Bits 7..5 of ARM_SCHEDULE's port mask byte, of which
R179 says nothing, are ignored: DESIGN CHOICE (log 34). -/
def decodeCommand (dev : BitVec 2) (h2 : Byte) : List Byte → Instr
  | [] => .transferCutShort
  | code :: ops =>
    match code.toNat with
    | 1 => .start dev
    | 2 => .rejoin dev
    | 3 => .force dev (maskOf h2) ops
    | 4 =>
      if ops.length < 8 then .transferCutShort
      else .armSchedule dev (ofTime (ops.take 6)) (ops.getD 6 0) (maskOf (ops.getD 7 0))
    | 5 => .disarm dev
    | 6 => if ops.length < 4 then .transferCutShort else .timeStep dev (BitVec.ofNat 32 (ofBytes (ops.take 4)))
    | 7 => if ops.length < 4 then .transferCutShort else .timeTrim dev (BitVec.ofNat 32 (ofBytes (ops.take 4)))
    | 8 => .clearCounters dev (maskOf h2) (stationOf h2)
    | 9 => .clearRollover dev (maskOf h2) (stationOf h2) ops
    | 10 => if ops.length < 1 then .transferCutShort else .ackNotices dev (ops.getD 0 0)
    | _ => .unknownCommand dev code

/-- A TABLE_READ by its selector (R164, R179). -/
def decodeTableRead (dev : BitVec 2) (h2 : Byte) (clocks : Nat) : Instr :=
  match h2.toNat / 32 with
  | 0 => .tableReadLink dev (maskOf h2) clocks
  | 1 => .tableReadCost dev clocks
  | 2 => .tableReadSeen dev clocks
  | 3 => .tableReadRing dev clocks
  | 4 => .tableReadRace dev (maskOf h2) clocks
  | 5 => .tableReadConfig dev clocks
  | _ => .tableReadUnknown dev clocks

/-- The commands that one transfer stands for: its whole bytes from the assertion of select to the release, and
whether the release fell within a byte. A write released within a byte is cut short; a read loses that byte; a
transfer released before its second header byte is complete is cut short at every type (R162, R163, R165, R179).
A TIME_READ stands for two commands: its latch and its release. -/
def decodeTransfer (bytes : List Byte) (midByte : Bool) : List Instr :=
  match bytes with
  | h1 :: h2 :: rest =>
    let dev := deviceOf h1
    match typeOf h1 with
    | 0 => [if midByte then .transferCutShort else decodeCommand dev h2 rest]
    | 1 => [if midByte || !completeBody rest then .transferCutShort else .configWrite dev rest]
    | 2 => [.statusRead dev (maskOf h2) rest.length]
    | 3 => [.counterRead dev (maskOf h2) (stationOf h2) rest.length]
    | 4 => [decodeTableRead dev h2 rest.length]
    | 5 => [.timeRead dev, .timeReadRelease rest.length]
    | t => [.unknownTransferType dev (BitVec.ofNat 3 t)]
  | _ => [.transferCutShort]

/-! ### Encoding -/

/-- A COMMAND transfer. -/
def commandTransfer (dev : BitVec 2) (h2 : Byte) (code : Byte) (ops : List Byte) : List Byte :=
  headerByte dev 0 :: h2 :: code :: ops

/-- A read transfer: two header bytes, then `clocks` bytes clocked with the data input at 0 (ignored, R163). -/
def readTransfer (dev : BitVec 2) (type : Nat) (h2 : Byte) (clocks : Nat) : List Byte :=
  headerByte dev type :: h2 :: List.replicate clocks 0

/-- The bytes of the transfer that a service-line command stands for; none for every other row, for the latch of a
TIME_READ, whose transfer goes on to its release, and for a transfer cut short. -/
def encodeTransfer : Instr → Option (List Byte)
  | .start dev => some (commandTransfer dev 0 1 [])
  | .rejoin dev => some (commandTransfer dev 0 2 [])
  | .force dev mask actions => some (commandTransfer dev (maskByte mask false) 3 actions)
  | .armSchedule dev target action mask =>
    some (commandTransfer dev 0 4 (beTime target ++ [action, maskByte mask false]))
  | .disarm dev => some (commandTransfer dev 0 5 [])
  | .timeStep dev offset => some (commandTransfer dev 0 6 (beBytes 4 offset.toNat))
  | .timeTrim dev trim => some (commandTransfer dev 0 7 (beBytes 4 trim.toNat))
  | .clearCounters dev mask station => some (commandTransfer dev (maskByte mask station) 8 [])
  | .clearRollover dev mask station sets => some (commandTransfer dev (maskByte mask station) 9 sets)
  | .ackNotices dev kinds => some (commandTransfer dev 0 10 [kinds])
  | .unknownCommand dev code => some (commandTransfer dev 0 code [])
  | .configWrite dev body => some (headerByte dev 1 :: 0 :: body)
  | .statusRead dev mask clocks => some (readTransfer dev 2 (maskByte mask false) clocks)
  | .counterRead dev mask station clocks => some (readTransfer dev 3 (maskByte mask station) clocks)
  | .tableReadLink dev mask clocks => some (readTransfer dev 4 (selectorByte 0 mask) clocks)
  | .tableReadCost dev clocks => some (readTransfer dev 4 (selectorByte 1 0) clocks)
  | .tableReadSeen dev clocks => some (readTransfer dev 4 (selectorByte 2 0) clocks)
  | .tableReadRing dev clocks => some (readTransfer dev 4 (selectorByte 3 0) clocks)
  | .tableReadRace dev mask clocks => some (readTransfer dev 4 (selectorByte 4 mask) clocks)
  | .tableReadConfig dev clocks => some (readTransfer dev 4 (selectorByte 5 0) clocks)
  | .tableReadUnknown dev clocks => some (readTransfer dev 4 (selectorByte 6 0) clocks)
  | .unknownTransferType dev type => some (headerByte dev type.toNat :: [0])
  | .powerOn | .powerOnResetRelease _ | .arrivalStart _ _ | .trafficArrivalCompletion _ _
  | .hailArrivalCompletion _ _ | .modemStatusWord _ _ | .hailTimerExpiry _ | .silenceExpiry _ | .holdExpiry _
  | .trialExpiry _ | .settleExpiry _ | .fadeTimeAccrual _ | .departureCompletion _ | .tinRisingEdge
  | .scheduleMatch | .ingressCompletion _ _ | .replyEnd | .deliveryReady | .deliveryCompletion | .timeRead _
  | .timeReadRelease _ | .transferCutShort | .ingressStart | .deliveryReadyWithdrawn => none

end Sys2Proof
end

