-- ==== Sys2Proof/Machine/Formats.lean ====
section
/-! DEFINITION. The formats of chapter 11: the route header, the HAIL, the modem status word and the local port's
request, reply and delivery record, read from bytes and written to bytes; and the tests of R13 and R16 on a frame
as it arrives. -/

namespace Sys2Proof.Machine

/-! ### Codings of names -/

/-- The port of a number 0..4. -/
def portOf? : Nat → Option Port
  | 0 => some .p0
  | 1 => some .p1
  | 2 => some .p2
  | 3 => some .p3
  | 4 => some .p4
  | _ => none

/-- The link state bits of a HAIL (R175), every value of which is a value of the list (R176). -/
def LinkState.toNat : LinkState → Nat
  | .off => 0 | .seeking => 1 | .clear => 2 | .degraded => 3
  | .faded => 4 | .hold => 5 | .trial => 6 | .drained => 7

/-- The link state of three bits (R175). -/
def LinkState.ofBits (n : Nat) : LinkState :=
  match n % 8 with
  | 0 => .off | 1 => .seeking | 2 => .clear | 3 => .degraded
  | 4 => .faded | 5 => .hold | 6 => .trial | _ => .drained

/-- The number of an urgency, 0..3. -/
def Urgency.toNat : Urgency → Nat
  | .u0 => 0 | .u1 => 1 | .u2 => 2 | .u3 => 3

/-- The urgency of two bits. -/
def Urgency.ofBits (n : Nat) : Urgency :=
  match n % 4 with
  | 0 => .u0 | 1 => .u1 | 2 => .u2 | _ => .u3

/-- The kind bits of byte 0 of a route header: 01 FLOOD, 10 AIMED (R174). -/
def Kind.toNat : Kind → Nat
  | .flood => 1 | .aimed => 2

/-- The kind of bits 7..6 of byte 0, none where the bits are 00 or 11 (R174). -/
def Kind.ofBits? (n : Nat) : Option Kind :=
  match n % 4 with
  | 1 => some .flood
  | 2 => some .aimed
  | _ => none

/-- Ports are coded 0..4, with LOCAL as 5 (R180). -/
def Origin.toNat : Origin → Nat
  | .line p => p.toNat
  | .loc => 5

/-- The number in the `n` bytes of a body from byte `i` on. -/
def bytesAt (body : List Byte) (i n : Nat) : Nat := ofBytes ((body.drop i).take n)

/-! ### Frames -/

/-- The frame class TRAFFIC (R173). -/
def classTraffic : Byte := 1
/-- The frame class HAIL (R173). -/
def classHail : Byte := 2

/-- The bytes of a frame as they cross the line: the body, then its check, least significant byte first (R173). -/
def frameBytes (f : Frame) : List Byte := f.body ++ checkBytes f.check

/-- The frame of bytes that crossed the line, the last four being the check; `aborted` is the equipment's
indication at its end (R173). -/
def frameOfBytes (l : List Byte) (aborted : Bool) : Frame :=
  { body := l.take (l.length - 4), check := BitVec.ofNat 32 (ofBytes (l.drop (l.length - 4)).reverse),
    aborted := aborted }

/-! ### Traffic -/

/-- Byte 0 of a route header and of a delivery record (R174, R178). -/
def kindByte (k : Kind) (inexact : Bool) (u : Urgency) : Byte :=
  BitVec.ofNat 8 (k.toNat * 64 + (if inexact then 32 else 0) + u.toNat)

/-- The 24 bytes of a route header (R174). -/
def RouteHeader.bytes (h : RouteHeader) : List Byte :=
  [kindByte h.kind h.inexact h.urgency, BitVec.ofNat 8 h.origin, BitVec.ofNat 8 h.target, h.startNumber]
  ++ beBytes 2 h.sequence.toNat ++ [BitVec.ofNat 8 h.budget, BitVec.ofNat 8 h.hops, 0, 0]
  ++ beTime h.originStamp ++ beBytes 4 h.routeDelay ++ beBytes 2 h.length ++ [0, 0]

/-- The route header that a body begins with, each field in its full width; none where the body is shorter than
24 bytes or its kind bits name no kind (R174, test 3 of R13). -/
def RouteHeader.read (body : List Byte) : Option RouteHeader :=
  let b0 := bytesAt body 0 1
  match Kind.ofBits? (b0 / 64) with
  | none => none
  | some k =>
    if body.length < 24 then none
    else some
      { kind := k, inexact := (b0 / 32) % 2 = 1, urgency := .ofBits b0,
        origin := bytesAt body 1 1, target := bytesAt body 2 1, startNumber := BitVec.ofNat 8 (bytesAt body 3 1),
        sequence := BitVec.ofNat 16 (bytesAt body 4 2), budget := bytesAt body 6 1, hops := bytesAt body 7 1,
        originStamp := BitVec.ofNat 48 (bytesAt body 10 6), routeDelay := bytesAt body 16 4,
        length := bytesAt body 20 2 }

/-- Tests 4 to 8 of R13 on a header and the payload that came with it. -/
def RouteHeader.passes (h : RouteHeader) (payload : List Byte) : Bool :=
  (8 ≤ h.length && h.length ≤ 1024 && payload.length = h.length)
  && (1 ≤ h.origin && h.origin ≤ 63)
  && (match h.kind with
      | .flood => h.target = 0
      | .aimed => 1 ≤ h.target && h.target ≤ 63)
  && 1 ≤ h.budget
  && h.hops + h.budget ≤ 31

/-- The checks of R13 at the arrival completion of a traffic frame: the header and payload of a good frame, none
where a test fails. -/
def checkTraffic (f : Frame) : Option (RouteHeader × List Byte) :=
  if f.aborted then none
  else if crc32 f.body ≠ f.check then none
  else match RouteHeader.read f.body with
    | none => none
    | some h => if h.passes (f.body.drop 24) then some (h, f.body.drop 24) else none

/-- The frame a traffic copy leaves as (R18, R173). -/
def trafficFrame (h : RouteHeader) (payload : List Byte) : Frame :=
  { body := h.bytes ++ payload, check := crc32 (h.bytes ++ payload), aborted := false }

/-! ### HAILs -/

/-- The bytes of an echo group (R175). -/
def Echo.bytes (e : Echo) : List Byte := [e.sequence] ++ beTime e.departure ++ beTime e.receipt

/-- The bytes of a cost vector: four per entry (R175). -/
def vectorBytes (v : List (Nat × Nat)) : List Byte :=
  (v.map (fun e => BitVec.ofNat 8 e.1 :: beBytes 3 e.2)).flatten

/-- The body of a HAIL (R175, R176). -/
def Hail.bytes (h : Hail) : List Byte :=
  [BitVec.ofNat 8 h.sender, BitVec.ofNat 8 (h.senderRole.toNat * 16 + h.senderPort.toNat), h.sequence,
   BitVec.ofNat 8 ((if h.echo.isSome then 128 else 0) + h.senderState.toNat)]
  ++ beSigned 1 h.farMargin ++ [BitVec.ofNat 8 h.vector.length] ++ beTime h.departure
  ++ (match h.echo with | none => [] | some e => e.bytes)
  ++ vectorBytes h.vector

/-- The entries of a cost vector, four bytes each (R175). -/
def readVector : List Byte → List (Nat × Nat)
  | d :: a :: b :: c :: rest => (d.toNat, ofBytes [a, b, c]) :: readVector rest
  | _ => []

/-- Destinations in 1..63 in strictly ascending order (test 6 of R16). -/
def ascending : List (Nat × Nat) → Bool
  | [] => true
  | [e] => 1 ≤ e.1 && e.1 ≤ 63
  | e :: e' :: rest => 1 ≤ e.1 && e.1 < e'.1 && ascending (e' :: rest)

/-- A signed byte. -/
def signedByte (n : Nat) : Int := if n < 128 then n else (n : Int) - 256

/-- The HAIL of a body, by tests 3 to 6 of R16; none where one fails. -/
def Hail.read (body : List Byte) : Option Hail :=
  let b1 := bytesAt body 1 1
  let b3 := bytesAt body 3 1
  let count := bytesAt body 5 1
  let echoed : Bool := 128 ≤ b3
  let vectorAt := if echoed then 25 else 12
  let sender := bytesAt body 0 1
  let vector := readVector (body.drop vectorAt)
  if body.length ≠ vectorAt + 4 * count then none
  else match portOf? (b1 % 8), Role.ofByte? (BitVec.ofNat 8 (b1 / 16 % 4)) with
    | some port, some role =>
      if sender = 0 ∨ 63 < sender then none
      else if 16 < count then none
      else if ascending vector then some
        { sender := sender, senderPort := port, senderRole := role,
          sequence := BitVec.ofNat 8 (bytesAt body 2 1), departure := BitVec.ofNat 48 (bytesAt body 6 6),
          farMargin := signedByte (bytesAt body 4 1), senderState := .ofBits b3,
          echo := if echoed then some
              { sequence := BitVec.ofNat 8 (bytesAt body 12 1), departure := BitVec.ofNat 48 (bytesAt body 13 6),
                receipt := BitVec.ofNat 48 (bytesAt body 19 6) }
            else none,
          vector := vector }
      else none
    | _, _ => none

/-- The checks of R16 at the arrival completion of a HAIL: the HAIL, none where a test fails. -/
def checkHail (f : Frame) : Option Hail :=
  if f.aborted then none
  else if crc32 f.body ≠ f.check then none
  else Hail.read f.body

/-- The frame a HAIL leaves as (R18, R173). -/
def hailFrame (h : Hail) : Frame := { body := h.bytes, check := crc32 h.bytes, aborted := false }

/-! ### Modem status words -/

/-- A modem status word as its Line Interface passes it on: lock flag, profile, RSL clamped to −240..0 (R17). -/
structure StatusWord where
  lock    : Bool
  profile : BitVec 3
  rsl     : Int
  deriving DecidableEq, Repr

/-- The word of the bytes that crossed the status channel; none where it was cut off before its third byte
(R177). -/
def StatusWord.read : List Byte → Option StatusWord
  | b0 :: b1 :: b2 :: _ =>
    let rsl : Int := (BitVec.ofNat 16 (ofBytes [b1, b2])).toInt
    some { lock := b0.getLsbD 7, profile := BitVec.ofNat 3 b0.toNat, rsl := max (-240) (min 0 rsl) }
  | _ => none

/-! ### Local port -/

/-- An ingress request (R135). -/
structure IngressRequest where
  kind    : Kind
  urgency : Urgency
  target  : Nat
  payload : List Byte
  deriving DecidableEq, Repr

/-- The request of the bytes received, `missing` standing for a byte 0 that never came (R178, log 27). A request
that ends before byte 1 is complete has no payload; its target is not examined. -/
def IngressRequest.read (missing : Byte) (bytes : List Byte) : IngressRequest :=
  let b0 := bytes.headD missing
  { kind := if b0.getLsbD 7 then .aimed else .flood, urgency := .ofBits b0.toNat,
    target := bytesAt bytes 1 1 % 64, payload := bytes.drop 2 }

/-- The code of a refusal cause in a reply (R178). -/
def IngressCause.code : IngressCause → Byte
  | .notInService => 1 | .role => 2 | .length => 3 | .target => 4 | .noRoute => 5 | .noBuffer => 6

/-- The bytes of a reply (R178). -/
def Reply.bytes : Reply → List Byte
  | .refused c => [c.code]
  | .accepted s t n => [0] ++ beBytes 2 s.toNat ++ beTime t ++ [BitVec.ofNat 8 n]

/-- The bytes of a delivery record (R178). -/
def DeliveryRecord.bytes (d : DeliveryRecord) : List Byte :=
  [kindByte d.kind d.inexact d.urgency, BitVec.ofNat 8 d.origin, BitVec.ofNat 8 d.target, d.startNumber]
  ++ beBytes 2 d.sequence.toNat ++ [BitVec.ofNat 8 d.hops, BitVec.ofNat 8 d.winning.toNat]
  ++ beTime d.originStamp ++ beTime d.arrivalSt ++ beBytes 4 d.routeDelay ++ beBytes 2 d.length ++ d.payload

end Sys2Proof.Machine
end

