-- ==== Sys2Proof/Machine/Operands.lean ====
section
/-! DEFINITION. Operands of the commands and the per-port access they are made of: port masks, the list parts of
FORCE and CLEAR_ROLLOVER, signed offsets and trims (R24, R25, R76, R153, R179). -/

namespace Sys2Proof.Machine

/-! ### One value per port -/

/-- The value of a port. -/
def PerPort.get {α : Type} (v : PerPort α) : Port → α
  | .p0 => v.p0 | .p1 => v.p1 | .p2 => v.p2 | .p3 => v.p3 | .p4 => v.p4

/-- The values with one port's replaced. -/
def PerPort.set {α : Type} (v : PerPort α) (p : Port) (x : α) : PerPort α :=
  match p with
  | .p0 => { v with p0 := x } | .p1 => { v with p1 := x } | .p2 => { v with p2 := x }
  | .p3 => { v with p3 := x } | .p4 => { v with p4 := x }

/-- The same value at every port. -/
def PerPort.fill {α : Type} (x : α) : PerPort α := ⟨x, x, x, x, x⟩

/-- The values in ascending port order. -/
def PerPort.toList {α : Type} (v : PerPort α) : List α := [v.p0, v.p1, v.p2, v.p3, v.p4]

/-! ### Masks -/

/-- Whether a port mask names a port (R179: bit n for port n). -/
def named (mask : BitVec 5) (p : Port) : Bool := mask.getLsbD p.toNat

/-- The ports a mask names, in ascending order. -/
def portsOf (mask : BitVec 5) : List Port := Port.all.filter (named mask)

/-- A scope of counters: a port or the station (R148). -/
inductive Scope where
  | port (p : Port)
  | station
  deriving DecidableEq, Repr

/-- The scopes a mask and station bit name: ports ascending, then the station (R153). -/
def scopesOf (mask : BitVec 5) (station : Bool) : List Scope :=
  (portsOf mask).map .port ++ (if station then [.station] else [])

/-! ### List parts -/

/-- The action of a FORCE action byte (R76): 1 and 3 DRAIN, 2 UNDRAIN, any other value none. -/
def forceAction? (b : Byte) : Option Action :=
  match b.toNat with
  | 1 => some .drain
  | 2 => some .undrain
  | 3 => some .drain
  | _ => none

/-- The actions of a FORCE, one per port named, in ascending port order; none where the transfer carries fewer
action bytes than the mask names ports or an action byte is 0 or 4..255. Bytes beyond are ignored (R76, R165). -/
def forceActions? (ports : List Port) (bytes : List Byte) : Option (List (Port × Action)) :=
  match ports, bytes with
  | [], _ => some []
  | _ :: _, [] => none
  | p :: ps, b :: bs =>
    match forceAction? b, forceActions? ps bs with
    | some a, some rest => some ((p, a) :: rest)
    | _, _ => none

/-- The action of ARM_SCHEDULE's action byte: 1 DRAIN, 2 UNDRAIN, any other value none (R33, R179). -/
def scheduleAction? (b : Byte) : Option Action :=
  match b.toNat with
  | 1 => some .drain
  | 2 => some .undrain
  | _ => none

/-- The counter sets of a CLEAR_ROLLOVER, one per scope named: 2 bytes for a port, 1 for the station, each a set
of counter positions (R153, R179); none where the transfer carries fewer. Bytes beyond are ignored (R165). -/
def rolloverSets? (scopes : List Scope) (bytes : List Byte) : Option (List (Scope × Nat)) :=
  match scopes, bytes with
  | [], _ => some []
  | .port p :: rest, a :: b :: bs => (rolloverSets? rest bs).map (fun l => (.port p, ofBytes [a, b]) :: l)
  | .port _ :: _, _ => none
  | .station :: rest, a :: bs => (rolloverSets? rest bs).map (fun l => (.station, a.toNat) :: l)
  | .station :: _, [] => none

/-! ### Signed operands -/

/-- The greatest magnitude of a TIME_STEP (R25). -/
def stepLimit : Int := 1000000000

/-- The greatest magnitude of the rate trim, in parts per billion (R23). -/
def trimLimit : Int := 200000

/-- The trim that an operand sets: the operand, or the nearer limit (R24). -/
def clampTrim (x : Int) : Int := max (-trimLimit) (min trimLimit x)

end Sys2Proof.Machine
end

