-- ==== Sys2Proof/Machine/Flags.lean ====
section
/-! DEFINITION. Counters with their rollover flags and wrap-since-read marks, the Notice Set with its marks, the
alarm line and the top notice (chapter 9). -/

namespace Sys2Proof.Machine

/-! ### Counters -/

/-- The position of a port counter in its scope (R148). -/
def PortCounter.index : PortCounter → Fin 16
  | .rxGood => 0 | .rxCheckErr => 1 | .rxNoBuffer => 2 | .hailRx => 3
  | .won => 4 | .lost => 5 | .stale => 6 | .spent => 7
  | .txTraffic => 8 | .queueDrop => 9 | .ageDrop => 10 | .flushed => 11
  | .reaimed => 12 | .fadeCount => 13 | .fadeTimeUs => 14 | .delayOutlier => 15

/-- The position of a station counter in its scope (R148). -/
def StationCounter.index : StationCounter → Fin 8
  | .ingressOk => 0 | .ingressRefused => 1 | .delivered => 2 | .deliveryDrop => 3
  | .noSlot => 4 | .echo => 5 | .originRestart => 6 | .noRouteDrop => 7

/-- One of the 88 counters. -/
inductive CounterName where
  | port (p : Port) (c : PortCounter)
  | station (c : StationCounter)
  deriving DecidableEq, Repr

/-- The scope's bit in the detail of COUNT_WRAP: 0..4 for ports, 5 for the station (R180). -/
def CounterName.scopeBit : CounterName → Nat
  | .port p _ => p.toNat
  | .station _ => 5

/-- Whether an increment wraps the counter (R150). -/
def Counter.wraps (c : Counter) : Bool := c.value = 0xFFFFFFFF#32

/-- A counter after an increment: a wrap returns it to 0 and sets both marks (R150). -/
def Counter.bump (c : Counter) : Counter :=
  { value := c.value + 1, rollover := c.rollover || c.wraps, wrapSinceRead := c.wrapSinceRead || c.wraps }

/-- The counter of a name. -/
def Statistics.counter (n : Statistics) : CounterName → Counter
  | .port p c => (n.ports.get p).get c.index
  | .station c => n.station.get c.index

/-- The statistics with one counter replaced. -/
def Statistics.setCounter (n : Statistics) (c : CounterName) (x : Counter) : Statistics :=
  match c with
  | .port p k => { n with ports := n.ports.set p ((n.ports.get p).set k.index.val x) }
  | .station k => { n with station := n.station.set k.index.val x }

/-! ### Notices -/

/-- The notice of a kind. -/
def NoticeSet.get (n : NoticeSet) : NoticeKind → Notice
  | .linkDown => n.linkDown | .linkUp => n.linkUp | .routeChange => n.routeChange
  | .noRoute => n.noRoute | .countWrap => n.countWrap | .timeEvent => n.timeEvent

/-- The Notice Set with one kind replaced. -/
def NoticeSet.set (n : NoticeSet) (k : NoticeKind) (x : Notice) : NoticeSet :=
  match k with
  | .linkDown => { n with linkDown := x } | .linkUp => { n with linkUp := x }
  | .routeChange => { n with routeChange := x } | .noRoute => { n with noRoute := x }
  | .countWrap => { n with countWrap := x } | .timeEvent => { n with timeEvent := x }

/-- The kinds in ACK_NOTICES bit order (R179). -/
def NoticeKind.all : List NoticeKind := [.linkDown, .linkUp, .routeChange, .noRoute, .countWrap, .timeEvent]

/-- The bit of a kind in ACK_NOTICES, and one less than its number as top notice (R179, R180). -/
def NoticeKind.toNat : NoticeKind → Nat
  | .linkDown => 0 | .linkUp => 1 | .routeChange => 2 | .noRoute => 3 | .countWrap => 4 | .timeEvent => 5

/-- A notice raised with a detail that is replaced (R155). -/
def Notice.raiseWith (x : Notice) (detail : Byte) : Notice :=
  { x with pending := true, setSinceReport := true, detail := detail }

/-- A notice raised with bit `i` added to its detail (R155). -/
def Notice.raiseBit (x : Notice) (i : Nat) : Notice := x.raiseWith (x.detail ||| BitVec.ofNat 8 (2 ^ i))

/-- A kind raised with bit `i` of its detail: a port of LINK_DOWN and LINK_UP, a scope of COUNT_WRAP, a cause of
TIME_EVENT (R155, R180). -/
def NoticeSet.raiseBit (n : NoticeSet) (k : NoticeKind) (i : Nat) : NoticeSet := n.set k ((n.get k).raiseBit i)

/-- A kind raised with a destination as detail: ROUTE_CHANGE and NO_ROUTE (R155). -/
def NoticeSet.raiseDestination (n : NoticeSet) (k : NoticeKind) (d : Nat) : NoticeSet :=
  n.set k ((n.get k).raiseWith (BitVec.ofNat 8 d))

/-- A notice marked by a STATUS_READ's latch: a pending kind becomes reported, set-since-report clear (R156). -/
def Notice.marked (x : Notice) : Notice :=
  if x.pending then { x with reported := true, setSinceReport := false } else x

/-- Every kind marked by a STATUS_READ's latch. -/
def NoticeSet.marked (n : NoticeSet) : NoticeSet :=
  ⟨n.linkDown.marked, n.linkUp.marked, n.routeChange.marked, n.noRoute.marked, n.countWrap.marked,
   n.timeEvent.marked⟩

/-- A notice that an ACK names: cleared if it is pending, reported and not set since the report (R158). -/
def Notice.acked (x : Notice) : Notice :=
  if x.pending && x.reported && !x.setSinceReport then .empty else x

/-- The Notice Set after an ACK of the kinds whose bits are set (R158). -/
def NoticeSet.acked (n : NoticeSet) (kinds : Byte) : NoticeSet :=
  NoticeKind.all.foldl (fun n k => if kinds.getLsbD k.toNat then n.set k (n.get k).acked else n) n

/-! ### Counting -/

/-- An event counted: the counter is incremented, and a wrap raises COUNT_WRAP with the counter's scope (R150). -/
def Statistics.count (n : Statistics) (c : CounterName) : Statistics :=
  let x := n.counter c
  let n' := n.setCounter c x.bump
  if x.wraps then { n' with notices := n'.notices.raiseBit .countWrap c.scopeBit } else n'

/-- A scope's counters at 0 with both marks clear (R152). -/
def Statistics.clearScope (n : Statistics) : Scope → Statistics
  | .port p => { n with ports := n.ports.set p (.replicate 16 .zero) }
  | .station => { n with station := .replicate 8 .zero }

/-- A counter after CLEAR_ROLLOVER names it: its flag is cleared unless it has wrapped since it was read (R153). -/
def Counter.clearRollover (c : Counter) : Counter := { c with rollover := c.rollover && c.wrapSinceRead }

/-- A counter after a COUNTER_READ has covered it (R151). -/
def Counter.readMark (c : Counter) : Counter := { c with wrapSinceRead := false }

/-- The counters of a scope whose positions are in `set`, after CLEAR_ROLLOVER (R153). -/
def Statistics.clearRollover (n : Statistics) (scope : Scope) (set : Nat) : Statistics :=
  let clear (i : Nat) (c : Counter) : Counter := if set.testBit i then c.clearRollover else c
  match scope with
  | .port p => { n with ports := n.ports.set p ((n.ports.get p).mapIdx clear) }
  | .station => { n with station := n.station.mapIdx clear }

/-- A scope after a COUNTER_READ has covered it: the wrap-since-read marks are cleared (R151). -/
def Statistics.readScope (n : Statistics) : Scope → Statistics
  | .port p => { n with ports := n.ports.set p ((n.ports.get p).map Counter.readMark) }
  | .station => { n with station := n.station.map Counter.readMark }

/-- The counters of a scope in their positions. -/
def Statistics.scopeCounters (n : Statistics) : Scope → List Counter
  | .port p => (n.ports.get p).toList
  | .station => n.station.toList

/-! ### The alarm line and the top notice -/

/-- The alarm line: asserted while at least one kind is both pending and enabled (R157). -/
def alarmLine (g : Image) (n : NoticeSet) : Bool :=
  NoticeKind.all.any (fun k => (n.get k).pending && g.enablesNotice k.toNat)

/-- The three groups of kinds (section 9.2). -/
inductive NoticeGroup where
  | a | b | c
  deriving DecidableEq, Repr

/-- The six group orders, by code (R181). -/
def groupOrder : Fin 6 → List NoticeGroup
  | 0 => [.a, .b, .c] | 1 => [.a, .c, .b] | 2 => [.b, .a, .c]
  | 3 => [.b, .c, .a] | 4 => [.c, .a, .b] | 5 => [.c, .b, .a]

/-- The two kinds of a group in the configured order: bits 3, 4 and 5 of NOTICE_ORDER put the second kind of
group A, B or C first (R159, R181). -/
def groupKinds (order : Byte) : NoticeGroup → List NoticeKind
  | .a => if order.getLsbD 3 then [.linkUp, .linkDown] else [.linkDown, .linkUp]
  | .b => if order.getLsbD 4 then [.noRoute, .routeChange] else [.routeChange, .noRoute]
  | .c => if order.getLsbD 5 then [.timeEvent, .countWrap] else [.countWrap, .timeEvent]

/-- The notice order that a NOTICE_ORDER value gives (R159); `draw` is used only for a group order code of 6 or 7, which
START does not pass (log 14). -/
def noticeOrder (draw : Nat) (order : Byte) : List NoticeKind :=
  let code := order.toNat % 8
  let groups := if h : code < 6 then groupOrder ⟨code, h⟩ else groupOrder (Config.unnamedGroupOrder draw order)
  (groups.map (groupKinds order)).flatten

/-- The first kind in the notice order `order` that is both pending and enabled (R159). -/
def topNotice (draw : Nat) (order : Byte) (g : Image) (n : NoticeSet) : Option NoticeKind :=
  (noticeOrder draw order).find? (fun k => (n.get k).pending && g.enablesNotice k.toNat)

end Sys2Proof.Machine
end

