-- ==== Sys2Proof/Machine/TimeUnit.lean ====
section
/-! DEFINITION. The Time Unit: the two clocks, the PPS capture unit and the schedule channel's test (chapter 2). -/

namespace Sys2Proof.Machine

/-- Units of the fractional part in one nanosecond (R23). -/
def fracUnit : Nat := 1000000000

/-- The clocks after an advance of the interval clock by `d` ns: station time advances by d + d × trim / 10^9,
carried exactly in the fractional part (R20, R23). -/
def TimeUnit.advance (t : TimeUnit) (d : Nat) : TimeUnit :=
  let total := t.frac + d * ((fracUnit : Int) + t.trim).toNat
  { t with ic := t.ic + BitVec.ofNat 48 d, st := t.st + BitVec.ofNat 48 (total / fracUnit),
           frac := total % fracUnit }

/-- The stamp of this instant (R26). -/
def TimeUnit.stamp (t : TimeUnit) : Stamp := ⟨t.ic, t.st⟩

/-- An edge counted in edges seen, saturating at 65,535 (R28). -/
def TimeUnit.countEdge (t : TimeUnit) : TimeUnit := { t with edgesSeen := min 65535 (t.edgesSeen + 1) }

/-- A capture applied: steps 1 to 4 of R28. -/
def TimeUnit.capture (t : TimeUnit) (c : Stamp) : TimeUnit :=
  { t with previous := t.latest, latest := some c, runMark := true,
           period := if t.runMark then t.latest.map (fun l => c.ic - l.ic) else none }

/-- A capture put into the hold place; one already there is lost and counted in missed edges (R30, R31). -/
def TimeUnit.hold (t : TimeUnit) (c : Stamp) : TimeUnit :=
  { t with held := some c, missed := if t.held.isSome then min 255 (t.missed + 1) else t.missed }

/-- Whether the armed channel matches: (ST − target) mod 2^48 is less than 2^47 (R34). -/
def TimeUnit.scheduleDue (t : TimeUnit) : Bool :=
  t.schedule.armed && elapsed t.st t.schedule.target < 2 ^ 47

/-- The channel disarmed, its fields kept (R35, R36, R37). -/
def TimeUnit.disarm (t : TimeUnit) : TimeUnit := { t with schedule := { t.schedule with armed := false } }

/-- Station time after a step of `offset` ns, modulo 2^48 (R25). -/
def TimeUnit.step (t : TimeUnit) (offset : Int) : TimeUnit := { t with st := t.st + BitVec.ofInt 48 offset }

end Sys2Proof.Machine
end

