-- ==== Sys2Proof/Machine/LinkMonitor.lean ====
section
/-! DEFINITION. The Link Monitor on one link record: neighbour, silence, delay estimate, margins, the link state
machine and the actions (chapters 3 and 4). Each function takes a record to a record; `g` is the configuration
image, `now` the interval clock, `fibre` whether the record is port 4's. -/

namespace Sys2Proof.Machine

/-- Usable means CLEAR or DEGRADED (R66). -/
def LinkState.usable : LinkState → Bool
  | .clear | .degraded => true
  | _ => false

/-- The states in which fade time accrues (R81). -/
def LinkState.fading : LinkState → Bool
  | .faded | .hold | .trial => true
  | _ => false

/-- Partner-drained: set while the neighbour state is DRAINED (R38). -/
def LinkRecord.partnerDrained (r : LinkRecord) : Bool := r.neighbourState = some .drained

/-- The effective margin E: the lower of the near and far margins, none when either is none (R64). -/
def LinkRecord.effective (r : LinkRecord) : Option Int :=
  match r.near, r.far with
  | some a, some b => some (min a b)
  | _, _ => none

/-- E is known and E ≥ x. -/
def LinkRecord.atLeast (r : LinkRecord) (x : Int) : Bool :=
  match r.effective with
  | some e => x ≤ e
  | none => false

/-- E is known and E < x. -/
def LinkRecord.below (r : LinkRecord) (x : Int) : Bool :=
  match r.effective with
  | some e => e < x
  | none => false

/-- A change of link state, which stamps the time of last state change (R67). -/
def LinkRecord.change (r : LinkRecord) (now : Time) (state : LinkState) (cause : Option FadeCause)
    (timer : Option StateTimer) : LinkRecord :=
  { r with state := state, fadeCause := cause, stateTimer := timer, lastChange := now }

/-- The neighbour forgotten (R45); its heard costs are the Route Computer's part. -/
def LinkRecord.forget (r : LinkRecord) (fibre : Bool) : LinkRecord :=
  { r with neighbour := none, neighbourRole := none, neighbourState := none, lastHail := none, delay := none,
           outlierRun := 0, silence := none, far := if fibre then r.far else none }

/-! ### The state machine -/

/-- Entry into the usable states: CLEAR if E ≥ D, DEGRADED if E < D; the settle timer starts (R68, R71, R72). -/
def LinkRecord.enterUsable (r : LinkRecord) (g : Image) (now : Time) : LinkRecord :=
  r.change now (if r.atLeast g.degradeLevel then .clear else .degraded) none (some ⟨.settle, now, g.settleNs⟩)

/-- The failure of R71 in HOLD or TRIAL: FADED with cause RAIN, the hold duration doubled up to HOLD_MAX. -/
def LinkRecord.fail (r : LinkRecord) (g : Image) (now : Time) : LinkRecord :=
  { r.change now .faded (some .rain) none with
    holdDuration := r.holdDuration.map (fun d => min (2 * d) g.holdMaxMs) }

/-- One evaluation of the state machine: at most one transition, the first whose condition holds (R67 to R73).
`timer` says that the event is the expiry of the state timer. -/
def LinkRecord.evaluate (r : LinkRecord) (g : Image) (now : Time) (timer : Bool) : LinkRecord :=
  match r.state with
  | .off => r
  | .drained => r
  | .seeking =>
    if r.neighbour.isSome && r.delay.isSome && r.atLeast g.restoreLevel && !r.partnerDrained then
      r.enterUsable g now
    else r
  | .clear =>
    if r.partnerDrained then r.change now .seeking none none
    else if r.below g.fadeLevel then r.change now .faded (some .rain) none
    else if r.below g.degradeLevel then r.change now .degraded none r.stateTimer
    else r
  | .degraded =>
    if r.partnerDrained then r.change now .seeking none none
    else if r.below g.fadeLevel then r.change now .faded (some .rain) none
    else if r.atLeast (g.degradeLevel + g.hysteresisLevel) then r.change now .clear none r.stateTimer
    else r
  | .faded =>
    if r.silence.isSome && r.atLeast g.restoreLevel && !r.partnerDrained then
      r.change now .hold none (some ⟨.hold, now, r.holdDuration.getD 0 * 1000000⟩)
    else r
  | .hold =>
    if r.partnerDrained then r.change now .seeking none none
    else if r.below g.restoreLevel then r.fail g now
    else if timer then r.change now .trial none (some ⟨.trial, now, g.trialNs⟩)
    else r
  | .trial =>
    if r.partnerDrained then r.change now .seeking none none
    else if r.below g.restoreLevel then r.fail g now
    else if timer then r.enterUsable g now
    else r

/-- Whether the state timer runs as `k` and has expired (R21, R66). -/
def LinkRecord.timerExpired (r : LinkRecord) (k : TimerKind) (now : Time) : Bool :=
  match r.stateTimer with
  | some t => t.kind = k && expired now t.start t.duration
  | none => false

/-- The settle timer's expiry: the hold duration returns to HOLD_BASE and the state timer stops (R72). -/
def LinkRecord.settle (r : LinkRecord) (g : Image) : LinkRecord :=
  { r with holdDuration := some g.holdBaseMs, stateTimer := none }

/-! ### Silence -/

/-- Whether the silence timer runs and has expired (R51). -/
def LinkRecord.silenceExpired (r : LinkRecord) (g : Image) (now : Time) : Bool :=
  match r.silence with
  | some t => expired now t g.silenceNs
  | none => false

/-- Silence expiry (R52): the timer stops, the far margin becomes none except on port 4, and the state decides. -/
def LinkRecord.silent (r : LinkRecord) (fibre : Bool) (now : Time) : LinkRecord :=
  let r' := { r with silence := none, far := if fibre then r.far else none }
  match r.state with
  | .clear | .degraded | .hold | .trial => r'.change now .faded (some .silent) none
  | .faded => { r' with fadeCause := some .silent }
  | .seeking | .drained => r'.forget fibre
  | .off => r'

/-- Whether silence expiry in this state forgets the neighbour (R52). -/
def LinkState.silenceForgets : LinkState → Bool
  | .seeking | .drained => true
  | _ => false

/-! ### HAILs -/

/-- The sender recorded as neighbour (R48). -/
def LinkRecord.record (r : LinkRecord) (h : Hail) : LinkRecord := { r with neighbour := some (h.sender, h.senderPort) }

/-- To SEEKING with the state timer stopped, but DRAINED and SEEKING stay as they are (R47, R49). -/
def LinkRecord.toSeeking (r : LinkRecord) (now : Time) : LinkRecord :=
  match r.state with
  | .drained | .seeking => r
  | _ => r.change now .seeking none none

/-- A HAIL of this station itself: the neighbour is forgotten and the port seeks (R47). -/
def LinkRecord.selfHail (r : LinkRecord) (fibre : Bool) (now : Time) : LinkRecord :=
  (r.forget fibre).toSeeking now

/-- Step 1 of R46 for a HAIL from another station: recording (R48), neighbour change (R49), or neither. -/
def LinkRecord.identify (r : LinkRecord) (fibre : Bool) (now : Time) (h : Hail) : LinkRecord :=
  match r.neighbour with
  | none => r.record h
  | some n => if n = (h.sender, h.senderPort) then r else ((r.forget fibre).toSeeking now).record h

/-- The greatest valid round trip in ns (R55). -/
def roundTripLimit : Int := 4000000

/-- The round trip of an echo: ((A4 − A1) mod 2^48) − ((B3 − B2) mod 2^48) (R55). -/
def roundTrip (arrival : Time) (h : Hail) (e : Echo) : Int :=
  (elapsed arrival e.departure : Int) - elapsed h.departure e.receipt

/-- A valid sample taken into the delay filter, and whether it was an outlier (R56, R57). -/
def LinkRecord.filter (r : LinkRecord) (jump : Nat) (s : Nat) : LinkRecord × Bool :=
  match r.delay with
  | none => ({ r with delay := some s }, false)
  | some p =>
    let d : Int := (s : Int) - p
    if d.natAbs ≤ jump then ({ r with delay := some ((p : Int) + d / 8).toNat, outlierRun := 0 }, false)
    else if r.outlierRun + 1 < 3 then ({ r with outlierRun := r.outlierRun + 1 }, true)
    else ({ r with delay := some s, outlierRun := 0 }, true)

/-- The delay sample of a HAIL, and whether DELAY_OUTLIER is counted: an echo of one of the last four HAILs sent
gives a round trip, invalid outside 1..4,000,000, else halved into a sample (R54, R55). -/
def LinkRecord.sample (r : LinkRecord) (g : Image) (arrival : Time) (h : Hail) : LinkRecord × Bool :=
  match h.echo with
  | none => (r, false)
  | some e =>
    if 3 < (r.lastSent - e.sequence).toNat then (r, false)
    else
      let rt := roundTrip arrival h e
      if 0 < rt ∧ rt ≤ roundTripLimit then r.filter g.delayJump.toNat (rt / 2).toNat else (r, true)

/-- Step 2 of R46: a HAIL taken from the recorded neighbour (R50), and whether DELAY_OUTLIER is counted. -/
def LinkRecord.take (r : LinkRecord) (g : Image) (fibre : Bool) (now arrival : Time) (h : Hail) :
    LinkRecord × Bool :=
  let r1 := { r with silence := some now, neighbourRole := some h.senderRole, neighbourState := some h.senderState,
                     far := if fibre then r.far else some h.farMargin }
  let r2 := r1.sample g arrival h
  ({ r2.1 with lastHail := some ⟨h.sequence, h.departure, arrival⟩ }, r2.2)

/-! ### Status words -/

/-- A value clamped to −128..+127 half-dB. -/
def clampMargin (x : Int) : Int := max (-128) (min 127 x)

/-- The raw margin of a status word (R62). -/
def rawMargin (g : Image) (w : StatusWord) : Int :=
  let f := g.profile w.profile
  if !w.lock then -128
  else if f.rate = 0 then -128
  else clampMargin (w.rsl - f.threshold.toInt)

/-- The smoothed near margin after a raw margin: M + floor((raw − M) / 2^k) (R63). -/
def smooth (k : Nat) (m : Option Int) (raw : Int) : Int :=
  match m with
  | none => raw
  | some m => m + (raw - m) / (2 ^ k : Nat)

/-- Steps 1 to 3 of R61: profile in use and smoothed near margin. -/
def LinkRecord.word (r : LinkRecord) (g : Image) (w : StatusWord) : LinkRecord :=
  { r with profile := w.profile, near := some (smooth g.marginShift.toNat r.near (rawMargin g w)) }

/-! ### Actions, START and REJOIN -/

/-- A DRAIN or UNDRAIN action (R74, R75). -/
def LinkRecord.act (r : LinkRecord) (now : Time) : Action → LinkRecord
  | .drain =>
    match r.state with
    | .off | .drained => r
    | _ => r.change now .drained none none
  | .undrain =>
    match r.state with
    | .drained | .faded | .hold | .trial => r.change now .seeking none none
    | _ => r

/-- START on an enabled port: SEEKING, hold duration HOLD_BASE, hail timer started, a HAIL due (R39, R66). -/
def LinkRecord.start (r : LinkRecord) (g : Image) (now : Time) : LinkRecord :=
  { r.change now .seeking none none with
    enabled := true, holdDuration := some g.holdBaseMs, hailTimer := some now, hailDue := true }

/-- REJOIN on an enabled port (R40, R83). -/
def LinkRecord.rejoin (r : LinkRecord) (g : Image) (fibre : Bool) (now : Time) : LinkRecord :=
  { (r.forget fibre).change now .seeking none none with
    holdDuration := some g.holdBaseMs, hailTimer := some now, hailDue := true }

/-- Fade time accrued over `d` ns into the remainder, in FADED, HOLD and TRIAL (R81). -/
def LinkRecord.accrue (r : LinkRecord) (d : Nat) : LinkRecord :=
  if r.state.fading then { r with fadeRemainder := r.fadeRemainder + d } else r

/-- Nanoseconds of fade time in one count of FADE_TIME_US (R81). -/
def fadeUnit : Nat := 1000

/-- The fade time remainder set to 0 by CLEAR_COUNTERS (R81, R152). A whole microsecond that has been reached and whose
accrual still waits is an increment that comes together with the clear: the clear is taken first, and the increment
is counted after it (R152, log 17). -/
def LinkRecord.clearFadeTime (r : LinkRecord) : LinkRecord :=
  { r with fadeRemainder := r.fadeRemainder - r.fadeRemainder % fadeUnit }

end Sys2Proof.Machine
end

