-- ==== Sys2Proof/Machine/RouteComputer.lean ====
section
/-! DEFINITION. The Route Computer: heard costs, cost via each port, choice of ports, recomputation with its
notices, and the advertised cost vector (chapter 5). -/

namespace Sys2Proof.Machine

open Config (unreachable costCap costEntries)

/-! ### Entries -/

/-- A new entry: no cost heard, no route (R86). -/
def CostEntry.new (d : Nat) : CostEntry :=
  { destination := d, heard := .fill unreachable, own := unreachable, best := none, second := none,
    secondCost := unreachable }

/-- The own entry of an END station at START and after REJOIN (R85). -/
def CostEntry.self (d : Nat) : CostEntry := { CostEntry.new d with own := 0 }

/-- Whether an entry is this station's own (R1, R85). -/
def CostEntry.isOwn (e : CostEntry) (g : Image) : Bool := g.isEnd && e.destination = g.number

/-- An entry in its place in the ascending order. -/
def insertEntry (e : CostEntry) : List CostEntry → List CostEntry
  | [] => [e]
  | x :: xs => if e.destination < x.destination then e :: x :: xs else x :: insertEntry e xs

/-- The entry of a destination. -/
def RouteComputer.entry? (t : RouteComputer) (d : Nat) : Option CostEntry :=
  t.entries.find? (fun e => e.destination = d)

/-! ### Heard costs -/

/-- The entry that a destination named in a cost vector finds or gets (R86). -/
def RouteComputer.enter (t : RouteComputer) (g : Image) (d : Nat) : RouteComputer :=
  if (t.entry? d).isSome then t
  else if d = g.number then t
  else if t.entries.length < costEntries then { t with entries := insertEntry (.new d) t.entries }
  else { t with full := true }

/-- The cost a vector names for a destination, UNREACHABLE where it does not name it (R87). -/
def vectorCost (v : List (Nat × Nat)) (d : Nat) : Nat :=
  match v.find? (fun x => x.1 = d) with
  | some x => x.2
  | none => unreachable

/-- The heard costs of port `p` replaced as a whole by a vector (R87). -/
def RouteComputer.hear (t : RouteComputer) (p : Port) (v : List (Nat × Nat)) : RouteComputer :=
  { t with entries := t.entries.map (fun e => { e with heard := e.heard.set p (vectorCost v e.destination) }) }

/-- Step 4 of R46 before its recompute: entries found or created, then the port's heard costs replaced. -/
def RouteComputer.take (t : RouteComputer) (g : Image) (p : Port) (v : List (Nat × Nat)) : RouteComputer :=
  (v.foldl (fun t x => t.enter g x.1) t).hear p v

/-- Every heard cost of the port UNREACHABLE: the neighbour is forgotten (R45). -/
def RouteComputer.forget (t : RouteComputer) (p : Port) : RouteComputer := t.hear p []

/-! ### Cost via a port -/

/-- The line rate of a port in Mbit/s: its profile's, or FIBRE_RATE on port 4 (R88). -/
def lineRate (g : Image) (p : Port) (r : LinkRecord) : Nat :=
  match p with
  | .p4 => g.fibreRate.toNat
  | _ => (g.profile r.profile).rate.toNat

/-- The serialization term S_p = ceil((REFLEN + 40) × 8,000 / rate) in ns; none at rate 0 (R88). -/
def serialization (g : Image) (rate : Nat) : Option Nat :=
  if rate = 0 then none else some (((g.refLen.toNat + 40) * 8000 + (rate - 1)) / rate)

/-- What the port adds to a heard cost: P + S + penalty; none where the port is not usable or has line rate 0
(R89). A usable port has P known (R68); a record that lacks it offers no route (log 18). -/
def portTerm (g : Image) (p : Port) (r : LinkRecord) : Option Nat :=
  if r.state.usable then
    match r.delay, serialization g (lineRate g p r) with
    | some d, some s => some (d + s + (if r.state = .degraded then g.degradePenalty.toNat else 0))
    | _, _ => none
  else none

/-- The cost via a port whose term is `t` to a destination heard at cost `h` (R89). -/
def viaCost (t : Option Nat) (h : Nat) : Nat :=
  match t with
  | none => unreachable
  | some t => if unreachable ≤ h then unreachable else min (h + t) costCap

/-- The cost via each port to an entry's destination. -/
def CostEntry.via (e : CostEntry) (g : Image) (lm : PerPort LinkRecord) : PerPort Nat :=
  { p0 := viaCost (portTerm g .p0 lm.p0) e.heard.p0, p1 := viaCost (portTerm g .p1 lm.p1) e.heard.p1,
    p2 := viaCost (portTerm g .p2 lm.p2) e.heard.p2, p3 := viaCost (portTerm g .p3 lm.p3) e.heard.p3,
    p4 := viaCost (portTerm g .p4 lm.p4) e.heard.p4 }

/-! ### The choice -/

/-- The better of the port found so far and the next: the next wins only with a lower cost (R90: ties to the lowest
index). -/
def better (v : PerPort Nat) (b : Option Port) (p : Port) : Option Port :=
  if unreachable ≤ v.get p then b
  else match b with
    | none => some p
    | some q => if v.get p < v.get q then some p else b

/-- Of the ports listed, ascending, the one of lowest cost among those that offer a route (R90). -/
def lowest (v : PerPort Nat) (ports : List Port) : Option Port := ports.foldl (better v) none

/-- The cost of a chosen port, UNREACHABLE where none is chosen. -/
def costOf (v : PerPort Nat) : Option Port → Nat
  | some p => v.get p
  | none => unreachable

/-- An entry chosen anew from its via costs (R90). -/
def CostEntry.choose (e : CostEntry) (v : PerPort Nat) : CostEntry :=
  let best := lowest v Port.all
  let second := if best.isSome then lowest v (Port.all.filter (fun p => some p ≠ best)) else none
  { e with own := costOf v best, best := best, second := second, secondCost := costOf v second }

/-- An entry recomputed: the own entry keeps its values, every other is chosen anew (R90). -/
def CostEntry.recompute (e : CostEntry) (g : Image) (lm : PerPort LinkRecord) : CostEntry :=
  if e.isOwn g then { e with own := 0, best := none, second := none, secondCost := unreachable }
  else e.choose (e.via g lm)

/-- The table recomputed (R91). -/
def RouteComputer.recompute (t : RouteComputer) (g : Image) (lm : PerPort LinkRecord) : RouteComputer :=
  { t with entries := t.entries.map (fun e => e.recompute g lm) }

/-- The notices of one entry of a recompute: ROUTE_CHANGE, then NO_ROUTE (R93, R94). -/
def routeNotices (n : NoticeSet) (old new : CostEntry) : NoticeSet :=
  let n1 := if old.best ≠ new.best then n.raiseDestination .routeChange new.destination else n
  if old.own < unreachable ∧ new.own = unreachable then n1.raiseDestination .noRoute new.destination else n1

/-- The notices of a recompute, entry by entry in ascending destination (R93, R94). -/
def RouteComputer.recomputeNotices (t : RouteComputer) (g : Image) (lm : PerPort LinkRecord) (n : NoticeSet) :
    NoticeSet :=
  t.entries.foldl (fun n e => routeNotices n e (e.recompute g lm)) n

/-! ### Advertisement, START and REJOIN -/

/-- The cost vector of a HAIL leaving port `p` (R95). -/
def RouteComputer.advertise (t : RouteComputer) (g : Image) (p : Port) : List (Nat × Nat) :=
  t.entries.map (fun e =>
    (e.destination, if e.isOwn g then 0 else if e.best = some p then unreachable else e.own))

/-- The table at START: the own entry of an END station (R85). -/
def RouteComputer.start (t : RouteComputer) (g : Image) : RouteComputer :=
  if g.isEnd then { t with entries := insertEntry (.self g.number) t.entries } else t

/-- The table after REJOIN: the own entry alone, with nothing heard; the table full flag clear (R85). -/
def RouteComputer.rejoin (t : RouteComputer) (g : Image) : RouteComputer :=
  { entries := (t.entries.filter (fun e => e.isOwn g)).map (fun e => .self e.destination), full := false }

end Sys2Proof.Machine
end

