-- ==== Sys2Proof/Machine/ArrivalFilter.lean ====
section
/-! DEFINITION. The Arrival Filter: the verdict, the Seen Table's windows, the Race Ring and the race statistics
(chapter 6). -/

namespace Sys2Proof.Machine

/-- Sequences a window covers: H − 511..H (R98). -/
def windowSize : Nat := 512

/-- A slot taken for an origin, or re-initialised at its restart: H = s, window holding s alone (R102, R104). -/
def Slot.fresh (o : Nat) (n : Byte) (s : BitVec 16) (now : Time) : Slot :=
  { origin := o, startNumber := n, highest := s, window := 1, lastHeard := now }

/-- The window moved forward by `d` to a new H, which is marked (R105). -/
def shiftWindow (w : BitVec 512) (d : Nat) : BitVec 512 := (w <<< d) ||| 1#512

/-- The sequence test: verdict and slot after it (R105, R106). -/
def Slot.judge (t : Slot) (s : BitVec 16) (now : Time) : Verdict × Slot :=
  let diff := (s - t.highest).toNat
  let back := (t.highest - s).toNat
  if diff = 0 then (.dup, { t with lastHeard := now })
  else if diff < 32768 then
    (.first, { t with highest := s, window := shiftWindow t.window diff, lastHeard := now })
  else if back < windowSize then
    if t.window.getLsbD back then (.dup, { t with lastHeard := now })
    else (.first, { t with window := t.window ||| (1#512 <<< back), lastHeard := now })
  else (.stale, t)

/-- The start-number test, then the sequence test: verdict, slot, and whether the origin restarted (R104). -/
def Slot.test (t : Slot) (n : Byte) (s : BitVec 16) (now : Time) : Verdict × Slot × Bool :=
  let d := (n - t.startNumber).toNat
  if d = 0 then
    let j := t.judge s now
    (j.1, j.2, false)
  else if d < 128 then (.first, .fresh t.origin n s now, true)
  else (.stale, t, false)

/-- Whether a slot holds an origin. -/
def holdsOrigin (o : Nat) : Option Slot → Bool
  | some t => t.origin = o
  | none => false

/-- The idle time of a slot; a free slot has none (R103). -/
def idleTime (now : Time) : Option Slot → Nat
  | some t => elapsed now t.lastHeard
  | none => 0

/-- The index of the longest idle of some slots, ties to the lowest index, by the index and idle time of the best
found so far (R103). -/
def longestIdle (now : Time) : List (Option Slot) → Nat → Nat × Nat → Nat × Nat
  | [], _, best => best
  | t :: rest, i, best =>
    longestIdle now rest (i + 1) (if best.2 < idleTime now t then (i, idleTime now t) else best)

/-- The slot that a new origin gets: the lowest free one, else the longest idle if it has been idle for
ORIGIN_IDLE (R102, R103). Indexes count slots 1 to 15 from 0. -/
def slotFor (slots : List (Option Slot)) (idleLimit : Nat) (now : Time) : Option Nat :=
  match slots.findIdx? Option.isNone with
  | some i => some i
  | none =>
    match slots with
    | [] => none
    | t :: rest =>
      let b := longestIdle now rest 1 (0, idleTime now t)
      if idleLimit ≤ b.2 then some b.1 else none

/-- What the Arrival Filter decides: the verdict, the slots 1 to 15 after it, and whether ORIGIN_RESTART is
counted. -/
structure Judgement where
  verdict : Verdict
  slots   : Vector (Option Slot) 15
  restart : Bool
  deriving DecidableEq, Repr

/-- The verdict on a good frame of origin `o`, start number `n` and sequence `s` at the station numbered `own`
(R101 to R106). -/
def judge (own idleLimit : Nat) (now : Time) (slots : Vector (Option Slot) 15) (o : Nat) (n : Byte)
    (s : BitVec 16) : Judgement :=
  if o = own then ⟨.echo, slots, false⟩
  else
    match slots.toList.findIdx? (holdsOrigin o) with
    | some i =>
      match slots.toList.getD i none with
      | some t =>
        let j := t.test n s now
        ⟨j.1, slots.setIfInBounds i (some j.2.1), j.2.2⟩
      | none => ⟨.noSlot, slots, false⟩
    | none =>
      match slotFor slots.toList idleLimit now with
      | some i => ⟨.first, slots.setIfInBounds i (some (.fresh o n s now)), false⟩
      | none => ⟨.noSlot, slots, false⟩

/-- The counter of a verdict on port `p` (R109). -/
def Verdict.counter (p : Port) : Verdict → CounterName
  | .first => .port p .won
  | .dup => .port p .lost
  | .stale => .port p .stale
  | .echo => .station .echo
  | .noSlot => .station .noSlot

/-- An entry added to the ring; the oldest is removed from a full ring (R110). -/
def addToRing (ring : List RingEntry) (e : RingEntry) : List RingEntry :=
  (if ring.length < Config.ringLimit then ring else ring.drop (ring.length + 1 - Config.ringLimit)) ++ [e]

/-- The newest ring entry of a message (R111). -/
def ringEntry? (ring : List RingEntry) (o : Nat) (n : Byte) (s : BitVec 16) : Option RingEntry :=
  ring.reverse.find? (fun e => e.origin = o && e.startNumber = n && e.sequence = s)

/-- The lateness of a losing copy against the first arrival, 0 where it began to arrive before it (R111). -/
def lateness (arrival first : Time) : Nat :=
  let d := elapsed arrival first
  if d < 2 ^ 47 then d else 0

/-- Race statistics with one lateness added (R112). -/
def RaceStats.add (r : RaceStats) (x : Nat) : RaceStats :=
  { sum := min (2 ^ 48 - 1) (r.sum + x), samples := min (2 ^ 32 - 1) (r.samples + 1), maximum := max r.maximum x }

/-- The race statistics of port `p` after a DUP measured against the ring, unchanged where no entry matches
(R111). -/
def ArrivalFilter.measure (f : ArrivalFilter) (p : Port) (arrival : Time) (o : Nat) (n : Byte) (s : BitVec 16) :
    ArrivalFilter :=
  match ringEntry? f.ring o n s with
  | some e => { f with race := f.race.set p ((f.race.get p).add (lateness arrival e.arrival)) }
  | none => f

/-- The filter after a verdict: the slots, and the ring at a FIRST or the statistics at a DUP (R110, R111). -/
def ArrivalFilter.after (f : ArrivalFilter) (j : Judgement) (p : Port) (arrival : Time) (o : Nat) (n : Byte)
    (s : BitVec 16) : ArrivalFilter :=
  let f' := { f with slots := j.slots }
  match j.verdict with
  | .first => { f' with ring := addToRing f.ring ⟨o, n, s, .line p, arrival⟩ }
  | .dup => f'.measure p arrival o n s
  | _ => f'

/-- Slot 0 and the ring at an accepted ingress (R99, R110). -/
def ArrivalFilter.ingress (f : ArrivalFilter) (s : BitVec 16) (now : Time) : ArrivalFilter :=
  { f with own := { f.own with highest := s, window := shiftWindow f.own.window 1, lastHeard := now },
           ring := addToRing f.ring ⟨f.own.origin, f.own.startNumber, s, .loc, now⟩ }

/-- Slot 0 at START (R99). -/
def ArrivalFilter.start (f : ArrivalFilter) (g : Image) (next : BitVec 16) (now : Time) : ArrivalFilter :=
  { f with own := { origin := g.number, startNumber := g.startNumber, highest := next - 1, window := 0,
                    lastHeard := now } }

end Sys2Proof.Machine
end

