-- ==== Sys2Proof/Machine/Ops.lean ====
section
/-! DEFINITION. Named operations over the state: reading and replacing one port's records, counting and raising,
recording a command's result, and the buffers and queues of the Forwarding Engine as data (R115 to R117, R126). -/

namespace Sys2Proof.Machine

/-! ### One record of the state -/

/-- The configuration image. -/
def State.image (s : State) : Image := s.slc.image

/-- The interval clock. -/
def State.now (s : State) : Time := s.tu.ic

/-- The station is in SERVICE. -/
def State.inService (s : State) : Bool := s.slc.station = .service

/-- Whether a port is the fibre port. -/
def fibrePort (p : Port) : Bool := p = .p4

/-- The link record of a port. -/
def State.link (s : State) (p : Port) : LinkRecord := s.lm.get p

/-- The state with one link record replaced. -/
def State.setLink (s : State) (p : Port) (r : LinkRecord) : State := { s with lm := s.lm.set p r }

/-- The frame in reception on a port. -/
def State.rx (s : State) (p : Port) : Reception := (s.li.get p).rx

/-- The state with the frame in reception on a port replaced. -/
def State.setRx (s : State) (p : Port) (x : Reception) : State :=
  { s with li := s.li.set p { s.li.get p with rx := x } }

/-- The frame in transmission on a port. -/
def State.tx (s : State) (p : Port) : Transmission := (s.li.get p).tx

/-- The state with the frame in transmission on a port replaced. -/
def State.setTx (s : State) (p : Port) (x : Transmission) : State :=
  { s with li := s.li.set p { s.li.get p with tx := x } }

/-- The Egress Queue of a port. -/
def State.queue (s : State) (p : Port) : EgressQueue := s.fe.queues.get p

/-- The state with one Egress Queue replaced. -/
def State.setQueue (s : State) (p : Port) (q : EgressQueue) : State :=
  { s with fe := { s.fe with queues := s.fe.queues.set p q } }

/-! ### Counting and raising -/

/-- An event counted (R149, R150). -/
def State.count (s : State) (c : CounterName) : State := { s with snu := s.snu.count c }

/-- An event counted if a condition holds. -/
def State.countIf (s : State) (b : Bool) (c : CounterName) : State := if b then s.count c else s

/-- The Notice Set replaced. -/
def State.setNotices (s : State) (n : NoticeSet) : State := { s with snu := { s.snu with notices := n } }

/-- A kind raised with one bit of its detail (R155). -/
def State.raiseBit (s : State) (k : NoticeKind) (i : Nat) : State := s.setNotices (s.snu.notices.raiseBit k i)

/-- The causes of TIME_EVENT, by bit of its detail (R180). -/
def causePps : Nat := 0
/-- The cause SCHEDULE of TIME_EVENT (R180). -/
def causeSchedule : Nat := 1

/-- The alarm line (R157). -/
def State.alarm (s : State) : Bool := alarmLine s.image s.snu.notices

/-! ### Buffers -/

/-- The lowest number, from `n` on, that the pool, in rising number, does not use. -/
def firstFree : Nat → List Buffer → Nat
  | n, [] => n
  | n, b :: bs => if b.id = n then firstFree (n + 1) bs else n

/-- A buffer put into the pool's list in its place. -/
def insertBuffer (b : Buffer) : List Buffer → List Buffer
  | [] => [b]
  | x :: xs => if b.id < x.id then b :: x :: xs else x :: insertBuffer b xs

/-- The number of free buffers (R117). -/
def Forwarding.freeBuffers (f : Forwarding) : Nat := Config.poolSize - f.pool.length

/-- The buffer of a number. -/
def Forwarding.buffer? (f : Forwarding) (i : Nat) : Option Buffer := f.pool.find? (fun b => b.id = i)

/-- The pool with one buffer changed. -/
def Forwarding.update (f : Forwarding) (i : Nat) (h : Buffer → Buffer) : Forwarding :=
  { f with pool := f.pool.map (fun b => if b.id = i then h b else b) }

/-- A header that holds nothing: what a buffer holds while its frame is still arriving (log 9). -/
def RouteHeader.blank : RouteHeader :=
  { kind := .flood, origin := 0, startNumber := 0, sequence := 0, target := 0, urgency := .u0, budget := 0,
    hops := 0, originStamp := 0, routeDelay := 0, inexact := false, length := 0 }

/-- The used ports of a new buffer: the arrival port, if it is a line port (R115). -/
def Origin.usedPorts : Origin → PerPort Bool
  | .line p => (PerPort.fill false).set p true
  | .loc => .fill false

/-- A free buffer granted, with one reference for its requester; none where the pool is empty (R116, R117). -/
def Forwarding.grant (f : Forwarding) (stamp : Stamp) (arrival : Origin) (h : RouteHeader) (payload : List Byte) :
    Option (Nat × Forwarding) :=
  if f.pool.length < Config.poolSize then
    let i := firstFree 0 f.pool
    let b : Buffer := { id := i, header := h, payload := payload, stamp := stamp, arrival := arrival,
                        used := arrival.usedPorts, refs := 1 }
    some (i, { f with pool := insertBuffer b f.pool })
  else none

/-- A buffer with one reference released; at none left it leaves the list: it is free (R116). -/
def releaseBuffer (b : Buffer) : Option Buffer := if b.refs ≤ 1 then none else some { b with refs := b.refs - 1 }

/-- One reference of a buffer released (R116). -/
def Forwarding.release (f : Forwarding) (i : Nat) : Forwarding :=
  { f with pool := f.pool.filterMap (fun b => if b.id = i then releaseBuffer b else some b) }

/-- One reference of a buffer released. -/
def State.release (s : State) (i : Nat) : State := { s with fe := s.fe.release i }

/-- Several references released, one after the other. -/
def State.releaseAll (s : State) (l : List Nat) : State := l.foldl State.release s

/-! ### Queues -/

/-- The entries of one class (R126). -/
def EgressQueue.klass (q : EgressQueue) : Urgency → List Nat
  | .u3 => q.c3 | .u2 => q.c2 | .u1 => q.c1 | .u0 => q.c0

/-- The queue with one class replaced. -/
def EgressQueue.setClass (q : EgressQueue) (u : Urgency) (l : List Nat) : EgressQueue :=
  match u with
  | .u3 => { q with c3 := l } | .u2 => { q with c2 := l } | .u1 => { q with c1 := l } | .u0 => { q with c0 := l }

/-- The number of entries, the four classes together (R126). -/
def EgressQueue.size (q : EgressQueue) : Nat := q.c3.length + q.c2.length + q.c1.length + q.c0.length

/-- An entry joined at the tail of its class (R126). -/
def EgressQueue.push (q : EgressQueue) (u : Urgency) (i : Nat) : EgressQueue := q.setClass u (q.klass u ++ [i])

/-- The entry at the head of the highest non-empty class, with the queue without it (R127). -/
def EgressQueue.pop? (q : EgressQueue) : Option (Nat × EgressQueue) :=
  match q.c3, q.c2, q.c1, q.c0 with
  | i :: l, _, _, _ => some (i, { q with c3 := l })
  | [], i :: l, _, _ => some (i, { q with c2 := l })
  | [], [], i :: l, _ => some (i, { q with c1 := l })
  | [], [], [], i :: l => some (i, { q with c0 := l })
  | [], [], [], [] => none

/-- The entries in queue order: class 3 from head to tail, then 2, 1 and 0, each with its class (R129). -/
def EgressQueue.entries (q : EgressQueue) : List (Urgency × Nat) :=
  q.c3.map (fun i => (.u3, i)) ++ q.c2.map (fun i => (.u2, i)) ++ q.c1.map (fun i => (.u1, i))
  ++ q.c0.map (fun i => (.u0, i))

/-! ### Results -/

/-- The last-command result set at a release (R166). -/
def State.setResult (s : State) (t : TransferName) (r : Result) (failing : Option Nat) : State :=
  { s with slc := { s.slc with last := ⟨some t, r, failing⟩ } }

/-- A COMMAND transfer's name (R166). -/
def commandName (code : Byte) : TransferName := ⟨0, code⟩

end Sys2Proof.Machine
end

