-- ==== Sys2Proof/Machine/Forwarding.lean ====
section
/-! DEFINITION. The Forwarding Engine's work over the state: departure starts and selection (R18, R42, R119,
R127), the copy rules (R120 to R125), and flush and re-aim (R129, R130). -/

namespace Sys2Proof.Machine

/-! ### Route delay -/

/-- A route header whose route delay has grown by `d` ns: at its limit it stays and sets INEXACT (R8). -/
def RouteHeader.addDelay (h : RouteHeader) (d : Nat) : RouteHeader :=
  if Config.routeDelayLimit < h.routeDelay + d then
    { h with routeDelay := Config.routeDelayLimit, inexact := true }
  else { h with routeDelay := h.routeDelay + d }

/-- The header after the hop delay of R118: P added where it is known, INEXACT set where it is none. -/
def RouteHeader.addHop (h : RouteHeader) : Option Nat → RouteHeader
  | some p => h.addDelay p
  | none => { h with inexact := true }

/-- The header after the hop step of R14. -/
def RouteHeader.hopStep (h : RouteHeader) : RouteHeader := { h with budget := h.budget - 1, hops := h.hops + 1 }

/-- The age of a buffer's message in this station, which is its residence (R119, R127, R143). -/
def Buffer.age (b : Buffer) (now : Time) : Nat := elapsed now b.stamp.ic

/-! ### Departure -/

/-- The HAIL built at a departure start on port `p`, with hail sequence `n` (R43, R44, R95). -/
def State.buildHail (s : State) (p : Port) (n : Byte) : Hail :=
  let r := s.link p
  { sender := s.image.number, senderPort := p, senderRole := s.image.roleOf, sequence := n, departure := s.now,
    farMargin := if fibrePort p then 127 else r.near.getD (-128),
    senderState := r.state,
    echo := r.lastHail.map (fun l => ⟨l.sequence, l.departure, l.receipt⟩),
    vector := s.rc.advertise s.image p }

/-- A due HAIL departs: hail due is cleared and the last sent hail sequence advances (R42). -/
def State.departHail (s : State) (p : Port) : State :=
  let r := s.link p
  let n := r.lastSent + 1
  (s.setTx p (.hail (s.buildHail p n))).setLink p { r with hailDue := false, lastSent := n }

/-- A traffic copy departs: its reference passes to the transmission, and its header carries the buffer's route
delay plus the residence (R18, R119). -/
def State.departTraffic (s : State) (p : Port) (b : Buffer) : State :=
  s.setTx p (.traffic b.id (b.header.addDelay (b.age s.now)))

/-- What a Line Interface hands its equipment for the frame in transmission: the frame class, and the frame with its
body and check (R18, R173). A traffic copy takes its payload from the buffer it holds. -/
def State.departing (s : State) (p : Port) : Option (Byte × Frame) :=
  match s.tx p with
  | .idle => none
  | .hail h => some (classHail, hailFrame h)
  | .traffic i h => (s.fe.buffer? i).map (fun b => (classTraffic, trafficFrame h b.payload))

/-- Selection on an idle port (R127): a due HAIL first, else the head of the highest non-empty class, dropped if it
is older than AGE_LIMIT, and so on. `fuel` bounds the number of heads examined. An entry whose buffer is not in
use is removed (log 18). -/
def selectFrom : Nat → State → Port → State
  | 0, s, _ => s
  | fuel + 1, s, p =>
    if (s.link p).hailDue then s.departHail p
    else
      match (s.queue p).pop? with
      | none => s
      | some (i, q) =>
        let s' := s.setQueue p q
        match s'.fe.buffer? i with
        | none => selectFrom fuel s' p
        | some b =>
          if s.image.ageNs < b.age s.now then selectFrom fuel ((s'.release i).count (.port p .ageDrop)) p
          else s'.departTraffic p b

/-- A port selects if it is idle, that is, with no frame in transmission (R127). -/
def State.select (s : State) (p : Port) : State :=
  if s.tx p = .idle then selectFrom ((s.queue p).size + 1) s p else s

/-! ### Copies -/

/-- Whether any radio port is usable. -/
def State.radioUsable (s : State) : Bool :=
  [Port.p0, .p1, .p2, .p3].any (fun p => (s.link p).state.usable)

/-- A candidate for a FLOOD copy (R120). -/
def State.floodCandidate (s : State) (p : Port) : Bool :=
  (s.link p).state.usable &&
  (if fibrePort p then
    match s.image.fibre with
    | .always => true
    | .whenRadioLost => !s.radioUsable
    | .never => false
   else s.image.floods p)

/-- The station recorded as neighbour of a port. -/
def State.neighbourStation (s : State) (p : Port) : Option Nat := (s.link p).neighbour.map Prod.fst

/-- The copy set of a FLOOD (R120): the candidates but for the arrival port and every port whose recorded neighbour
is the FLOOD's origin. -/
def State.floodPorts (s : State) (arrival : Origin) (origin : Nat) : List Port :=
  Port.all.filter (fun p =>
    s.floodCandidate p && decide (arrival ≠ .line p) && decide (s.neighbourStation p ≠ some origin))

/-- Whether a FLOOD is owed to the local port: at a FLOOR always, at a SOURCE with CROSS_FEED set for another
station's; never for an ingress (R121). -/
def State.floodOwed (s : State) (arrival : Origin) (origin : Nat) : Bool :=
  decide (arrival ≠ .loc) &&
  match s.image.roleOf with
  | .floor => true
  | .source => s.image.crossFeeds && decide (origin ≠ s.image.number)
  | .relay => false

/-- What R122 and R123 choose for an AIMED message. -/
inductive AimedChoice where
  /-- Step 1: owed to the local port. -/
  | localPort
  /-- Steps 2 to 4: discarded. -/
  | noRoute
  /-- Step 4: an egress port, and the pair port if there is one. -/
  | egress (c : Port) (pair : Option Port)
  deriving DecidableEq, Repr

/-- The pair port of R123 for an entry whose chosen port is `c`. -/
def State.pairPort (s : State) (e : CostEntry) (arrival : Origin) (c : Port) (u : Urgency) : Option Port :=
  match e.second with
  | none => none
  | some p =>
    if s.image.pairClass.toNat ≤ u.toNat ∧ arrival ≠ .line p ∧ p ≠ c
        ∧ e.secondCost ≤ e.own + s.image.pairWindow.toNat then some p
    else none

/-- The choice for an AIMED message with target `t` (R122, R123). -/
def State.aimedChoice (s : State) (arrival : Origin) (t : Nat) (u : Urgency) : AimedChoice :=
  if t = s.image.number then (if s.image.isEnd then .localPort else .noRoute)
  else
    match s.rc.entry? t with
    | none => .noRoute
    | some e =>
      match e.best with
      | none => .noRoute
      | some b =>
        if arrival = .line b then
          match e.second with
          | none => .noRoute
          | some c => .egress c (s.pairPort e arrival c u)
        else .egress b (s.pairPort e arrival b u)

/-- A copy placed at the tail of class `u` of port `p`'s queue, with a reference and the port among the used ports;
or dropped and counted QUEUE_DROP where the queue is full (R125). An idle port then selects at once. The flag says
whether it was placed. -/
def State.place (s : State) (i : Nat) (u : Urgency) (p : Port) : State × Bool :=
  if (s.queue p).size < Config.egressLimit then
    let fe := s.fe.update i (fun b => { b with refs := b.refs + 1, used := b.used.set p true })
    let s1 := { s with fe := fe }
    ((s1.setQueue p ((s1.queue p).push u i)).select p, true)
  else (s.count (.port p .queueDrop), false)

/-- Egress copies placed one after the other, with the number placed (R125). -/
def placeCopies (i : Nat) (u : Urgency) : List Port → State → State × Nat
  | [], s => (s, 0)
  | p :: ps, s =>
    let r := s.place i u p
    let rest := placeCopies i u ps r.1
    (rest.1, rest.2 + (if r.2 then 1 else 0))

/-- Two ports in ascending order. -/
def ascendingPair (c : Port) : Option Port → List Port
  | none => [c]
  | some p => if p.toNat < c.toNat then [p, c] else [c, p]

/-! ### Leaving the usable states -/

/-- The candidates of a re-aim: best port, then second port, but for those the buffer has used (R130). -/
def State.reaimPort (s : State) (b : Buffer) : Option Port :=
  match s.rc.entry? b.header.target with
  | none => none
  | some e => [e.best, e.second].findSome? (fun c =>
      match c with
      | none => none
      | some p => if b.used.get p then none else some p)

/-- One entry of a port that has left the usable states: a FLOOD is flushed, an AIMED entry re-aimed (R129, R130).
An entry whose buffer is not in use is removed (log 18). -/
def State.flushEntry (p : Port) (s : State) (entry : Urgency × Nat) : State :=
  match s.fe.buffer? entry.2 with
  | none => s
  | some b =>
    match b.header.kind with
    | .flood => (s.release b.id).count (.port p .flushed)
    | .aimed =>
      match s.reaimPort b with
      | none => (s.release b.id).count (.port p .flushed)
      | some r =>
        if (s.queue r).size < Config.egressLimit then
          let s1 := { s with fe := s.fe.update b.id (fun b => { b with used := b.used.set r true }) }
          ((s1.setQueue r ((s1.queue r).push entry.1 b.id)).count (.port p .reaimed)).select r
        else (s.release b.id).count (.port r .queueDrop)

/-- The queue of a port that has left the usable states processed in queue order, after which it is empty
(R129). -/
def State.flush (s : State) (p : Port) : State :=
  (s.queue p).entries.foldl (State.flushEntry p) (s.setQueue p .empty)

end Sys2Proof.Machine
end

