-- ==== Sys2Proof/Machine/Delivery.lean ====
section
/-! DEFINITION. The local port's outward path: the Delivery Queue, delivery starts and replies (R134, R142 to R145);
and the copies made from one arrival or ingress, local copy included (R121 to R125). -/

namespace Sys2Proof.Machine

/-- The Delivery Queue replaced. -/
def State.setDeliveries (s : State) (l : List Nat) : State := { s with lpc := { s.lpc with queue := l } }

/-- The delivery record built at delivery start from a buffer (R144). -/
def Buffer.record (b : Buffer) (now : Time) : DeliveryRecord :=
  let h := b.header.addDelay (b.age now)
  { kind := h.kind, origin := h.origin, startNumber := h.startNumber, sequence := h.sequence, target := h.target,
    urgency := h.urgency, originStamp := h.originStamp, length := h.length, payload := b.payload, hops := h.hops,
    routeDelay := h.routeDelay, inexact := h.inexact, arrivalSt := b.stamp.st, winning := b.arrival }

/-- The test of the Delivery Queue's head, and of each new head after a drop for age, until one passes or the queue
is empty (R143). `fuel` bounds the number of heads; an entry whose buffer is not in use is removed (log 18). -/
def deliverFrom : Nat → State → State
  | 0, s => s
  | fuel + 1, s =>
    match s.lpc.queue with
    | [] => s
    | i :: rest =>
      match s.fe.buffer? i with
      | none => deliverFrom fuel (s.setDeliveries rest)
      | some b =>
        if s.image.ageNs < b.age s.now then
          deliverFrom fuel (((s.setDeliveries rest).release i).count (.station .deliveryDrop))
        else { s with lpc := { s.lpc with delivering := some (b.record s.now) } }

/-- A delivery begins if delivery ready is shown, none is in progress and no reply is due (R143). -/
def State.tryDeliver (s : State) : State :=
  if s.lpc.deliveryReady && s.lpc.delivering.isNone && s.lpc.reply.isNone then
    deliverFrom (s.lpc.queue.length + 1) s
  else s

/-- A due reply is sent at once if the outward path is idle (R134). -/
def State.sendReply (s : State) : State :=
  if s.lpc.reply.isSome && s.lpc.delivering.isNone then { s with lpc := { s.lpc with replySending := true } } else s

/-- A local copy placed at the tail of the Delivery Queue with its own reference, or dropped where the queue holds
64 entries (R125, R142). -/
def State.placeLocal (s : State) (i : Nat) : State :=
  if s.lpc.queue.length < Config.deliveryLimit then
    let s1 := { s with fe := s.fe.update i (fun b => { b with refs := b.refs + 1 }) }
    (s1.setDeliveries (s1.lpc.queue ++ [i])).tryDeliver
  else s.count (.station .deliveryDrop)

/-- SPENT counted on the arrival port; an ingress never counts it (R121, R124). -/
def State.countSpent (s : State) : Origin → State
  | .line p => s.count (.port p .spent)
  | .loc => s

/-- Egress copies made on ports, or SPENT counted where no hop is left (R121, R124). -/
def State.egressCopies (s : State) (b : Buffer) (ports : List Port) : State × Nat :=
  if b.header.budget = 0 then (s.countSpent b.arrival, 0) else placeCopies b.id b.header.urgency ports s

/-- The copies a station owes for one buffer, with the number of egress copies placed (R120 to R125). -/
def State.makeCopies (s : State) (b : Buffer) : State × Nat :=
  match b.header.kind with
  | .flood =>
    let r := s.egressCopies b (s.floodPorts b.arrival b.header.origin)
    if s.floodOwed b.arrival b.header.origin then (r.1.placeLocal b.id, r.2) else r
  | .aimed =>
    match s.aimedChoice b.arrival b.header.target b.header.urgency with
    | .localPort => (s.placeLocal b.id, 0)
    | .noRoute => (s.count (.station .noRouteDrop), 0)
    | .egress c pair => s.egressCopies b (ascendingPair c pair)

/-- The copies owed for the buffer of a number (log 18: none where it is not in use). -/
def State.copiesOf (s : State) (i : Nat) : State × Nat :=
  match s.fe.buffer? i with
  | some b => s.makeCopies b
  | none => (s, 0)

end Sys2Proof.Machine
end

