-- ==== Sys2Proof/Machine/Links.lean ====
section
/-! DEFINITION. The Link Monitor's events over the state: reports of a change of link state, the recompute it causes
and the queue work that follows (R78 to R80, R91, R129), HAIL processing (R46), actions and the schedule match
(R35, R76). -/

namespace Sys2Proof.Machine

/-- The Line Interface follows what arrives on a port: the station is in SERVICE and the port enabled (R4, R5). -/
def State.follows (s : State) (p : Port) : Bool := s.inService && (s.link p).enabled

/-- A change into the usable states raises LINK_UP, one out of them LINK_DOWN, and an entry into FADED counts
FADE_COUNT (R79, R80). Not used for a change made by an action or by REJOIN. -/
def State.report (s : State) (p : Port) (old new : LinkState) : State :=
  let s1 :=
    if old.usable && !new.usable then s.raiseBit .linkDown p.toNat
    else if !old.usable && new.usable then s.raiseBit .linkUp p.toNat
    else s
  s1.countIf (decide (new = .faded) && decide (old ≠ .faded)) (.port p .fadeCount)

/-- A link record changed by an event that reports its change of state. -/
def State.transition (s : State) (p : Port) (f : LinkRecord → LinkRecord) : State :=
  (s.setLink p (f (s.link p))).report p (s.link p).state (f (s.link p)).state

/-- A recompute of the Cost Table, with its notices (R91, R93, R94). -/
def State.recompute (s : State) : State :=
  { s with rc := s.rc.recompute s.image s.lm,
           snu := { s.snu with notices := s.rc.recomputeNotices s.image s.lm s.snu.notices } }

/-- Every heard cost of a port UNREACHABLE (R45). -/
def State.forgetCosts (s : State) (p : Port) : State := { s with rc := s.rc.forget p }

/-- A change of state that the Route Computer is told of: into or out of the usable states, or between CLEAR and
DEGRADED (R78). -/
def LinkState.reroutes (old new : LinkState) : Bool := (old.usable || new.usable) && decide (old ≠ new)

/-- A change out of the usable states (R129). -/
def LinkState.leaves (old new : LinkState) : Bool := old.usable && !new.usable

/-- The end of an event of port `p`, which stood in `old` before it: one recompute where the event calls for it, and
then the queue work of a port that has left the usable states (R78, R129). -/
def State.settleRoutes (s : State) (p : Port) (old : LinkState) (always : Bool) : State :=
  let s1 := if always || old.reroutes (s.link p).state then s.recompute else s
  if old.leaves (s1.link p).state then s1.flush p else s1

/-- An evaluation of the state machine of a port, with its reports (R67, R79, R80). -/
def State.evaluate (s : State) (p : Port) (timer : Bool) : State :=
  s.transition p (fun r => r.evaluate s.image s.now timer)

/-! ### HAILs -/

/-- A HAIL of this station itself (R47). -/
def State.selfHail (s : State) (p : Port) : State :=
  ((s.transition p (fun r => r.selfHail (fibrePort p) s.now)).forgetCosts p).settleRoutes p (s.link p).state true

/-- Step 2 of R46: the HAIL taken from the recorded neighbour, its delay sample counted if it is an outlier. -/
def State.takeFromNeighbour (s : State) (p : Port) (arrival : Time) (h : Hail) : State :=
  let r := (s.link p).take s.image (fibrePort p) s.now arrival h
  (s.setLink p r.1).countIf r.2 (.port p .delayOutlier)

/-- Step 4 of R46: the cost vector replaces the port's heard costs, and the table is recomputed once (R87). A
neighbour change's UNREACHABLE costs are covered by the replacement. -/
def State.takeCosts (s : State) (p : Port) (h : Hail) : State :=
  { s with rc := s.rc.take s.image p h.vector }.recompute

/-- The four steps of R46 for a HAIL from another station, and the queue work where one of them took the port out of
the usable states. -/
def State.neighbourHail (s : State) (p : Port) (arrival : Time) (h : Hail) : State :=
  let s1 := s.transition p (fun r => r.identify (fibrePort p) s.now h)
  let s3 := (s1.takeFromNeighbour p arrival h).evaluate p false
  let s4 := s3.takeCosts p h
  if (s.link p).state.leaves (s1.link p).state || (s1.link p).state.leaves (s3.link p).state then s4.flush p
  else s4

/-- A valid HAIL processed by the Link Monitor (R46, R47). -/
def State.hail (s : State) (p : Port) (arrival : Time) (h : Hail) : State :=
  if h.sender = s.image.number then s.selfHail p else s.neighbourHail p arrival h

/-! ### Status words, silence and timers -/

/-- A status word taken by the Link Monitor: the four steps of R61, with one recompute for the profile and the
state. -/
def State.statusWord (s : State) (p : Port) (w : StatusWord) : State :=
  let r := s.link p
  ((s.setLink p (r.word s.image w)).evaluate p false).settleRoutes p r.state (decide (w.profile ≠ r.profile))

/-- Silence expiry of a port (R52). -/
def State.silent (s : State) (p : Port) : State :=
  let old := (s.link p).state
  let s1 := s.transition p (fun r => r.silent (fibrePort p) s.now)
  (if old.silenceForgets then s1.forgetCosts p else s1).settleRoutes p old old.silenceForgets

/-- The expiry of the hold or trial timer of a port: the state machine is evaluated on it (R67, R71). -/
def State.timerEvent (s : State) (p : Port) : State :=
  (s.evaluate p true).settleRoutes p (s.link p).state false

/-- The expiry of the settle timer: the hold duration returns to HOLD_BASE, and the state machine is evaluated
(R67, R72). -/
def State.settleEvent (s : State) (p : Port) : State :=
  ((s.setLink p ((s.link p).settle s.image)).evaluate p false).settleRoutes p (s.link p).state false

/-! ### Actions -/

/-- An action on one port, with its own recompute and queue work; it raises and counts nothing (R74 to R76, R79). -/
def State.act (s : State) (a : Port × Action) : State :=
  (s.setLink a.1 ((s.link a.1).act s.now a.2)).settleRoutes a.1 (s.link a.1).state false

/-- Actions taken one port after another (R76). -/
def State.actAll (s : State) (l : List (Port × Action)) : State := l.foldl State.act s

/-- A schedule match, where the armed channel matches: disarmed, its action taken on each port of its mask in
ascending order, TIME_EVENT raised with cause SCHEDULE (R35). No effect where it does not match. -/
def State.scheduleEvent (s : State) : State :=
  if s.tu.scheduleDue then
    let c := s.tu.schedule
    ({ s with tu := s.tu.disarm }.actAll ((portsOf c.mask).map (fun p => (p, c.action)))).raiseBit .timeEvent
      causeSchedule
  else s

/-! ### Captures -/

/-- A capture applied to the stages, raising TIME_EVENT with cause PPS where the run mark was set (R28). -/
def State.applyCapture (s : State) (c : Stamp) : State :=
  let s1 := { s with tu := s.tu.capture c }
  if s.tu.runMark then s1.raiseBit .timeEvent causePps else s1

end Sys2Proof.Machine
end

