-- ==== Sys2Proof/Machine/Records.lean ====
section
/-! DEFINITION. The records that the reads return (R164, R180): station status, counters, tables and time. `draw`
picks the free values of log 13 and log 14. -/

namespace Sys2Proof.Machine

/-! ### Codings -/

/-- A field that may be none: a presence byte, 1 known and 0 none, then its value, sent as 0 when none (R180). -/
def optional (n : Nat) : Option (List Byte) → List Byte
  | some v => 1 :: v
  | none => 0 :: List.replicate n 0

/-- A field listed "set, clear" or "yes, no": an enumeration numbered from 0 in that order (R180). DEDUCED
(log 12). -/
def flagByte (b : Bool) : Byte := if b then 0 else 1

/-- The number of a fade cause in R66's order. -/
def FadeCause.toNat : FadeCause → Nat
  | .rain => 0 | .silent => 1

/-- A number in one byte. -/
def byteOf (n : Nat) : Byte := BitVec.ofNat 8 n

/-- A running timer: flag, start reading, duration in ns; the bytes of a stopped one after its flag are free
(R180, log 13). `which` is 0 for a silence timer and 1 for a state timer. -/
def timerBytes (draw which : Nat) (p : Port) : Option (Time × Nat) → List Byte
  | some (t, d) => [1] ++ beTime t ++ beBytes 6 d
  | none => 0 :: (List.range 12).map (fun i => Config.stoppedTimerByte draw (p.toNat * 2 + which) i)

/-! ### Tables -/

/-- A link record: the fields of R38's table, then those of R66's (R164, R180). -/
def linkBytes (draw : Nat) (g : Image) (p : Port) (r : LinkRecord) : List Byte :=
  [flagByte r.enabled]
  ++ optional 1 (r.neighbour.map (fun n => [byteOf n.1]))
  ++ optional 1 (r.neighbour.map (fun n => [byteOf n.2.toNat]))
  ++ optional 1 (r.neighbourRole.map (fun x => [byteOf x.toNat]))
  ++ optional 1 (r.neighbourState.map (fun x => [byteOf x.toNat]))
  ++ [flagByte r.partnerDrained, flagByte r.hailDue, r.lastSent]
  ++ optional 13 (r.lastHail.map (fun l => [l.sequence] ++ beTime l.departure ++ beTime l.receipt))
  ++ timerBytes draw 0 p (r.silence.map (fun t => (t, g.silenceNs)))
  ++ optional 3 (r.delay.map (beBytes 3))
  ++ [byteOf r.outlierRun]
  ++ optional 1 (r.far.map (beSigned 1))
  ++ [byteOf r.profile.toNat]
  ++ optional 1 (r.near.map (beSigned 1))
  ++ optional 1 (r.effective.map (beSigned 1))
  ++ [byteOf r.state.toNat]
  ++ optional 1 (r.fadeCause.map (fun c => [byteOf c.toNat]))
  ++ optional 2 (r.holdDuration.map (beBytes 2))
  ++ timerBytes draw 1 p (r.stateTimer.map (fun t => (t.start, t.duration)))
  ++ beTime r.lastChange ++ beBytes 2 r.fadeRemainder

/-- The link records of the ports named (R164). -/
def State.linkTable (s : State) (mask : BitVec 5) : List Byte :=
  ((portsOf mask).map (fun p => linkBytes s.draws s.image p (s.link p))).flatten

/-- A Cost Table entry (R84, R180). -/
def CostEntry.bytes (e : CostEntry) : List Byte :=
  [byteOf e.destination] ++ (e.heard.toList.map (beBytes 3)).flatten ++ beBytes 3 e.own
  ++ optional 1 (e.best.map (fun p => [byteOf p.toNat])) ++ optional 1 (e.second.map (fun p => [byteOf p.toNat]))
  ++ beBytes 3 e.secondCost

/-- The Cost Table: the entry count, then the entries (R164). -/
def State.costTable (s : State) : List Byte :=
  byteOf s.rc.entries.length :: (s.rc.entries.map CostEntry.bytes).flatten

/-- The fields of a Seen Table slot in R98's order, the window as 64 bytes of marks (R180). -/
def Slot.bytes (t : Slot) : List Byte :=
  [byteOf t.origin, t.startNumber] ++ beBytes 2 t.highest.toNat ++ beBytes 64 t.window.toNat ++ beTime t.lastHeard

/-- Slot `i`: a free one shows origin 0, and its other bytes are free values (R98, R114, log 13). -/
def slotBytes (draw i : Nat) : Option Slot → List Byte
  | some t => t.bytes
  | none => 0 :: (List.range 73).map (fun k => Config.freeSlotByte draw i k)

/-- The Seen Table, slot 0 first (R114). -/
def State.seenTable (s : State) : List Byte :=
  s.af.own.bytes ++ (s.af.slots.toList.mapIdx (fun i t => slotBytes s.draws (i + 1) t)).flatten

/-- A Race Ring entry (R110, R180). -/
def RingEntry.bytes (e : RingEntry) : List Byte :=
  [byteOf e.origin, e.startNumber] ++ beBytes 2 e.sequence.toNat ++ [byteOf e.winning.toNat] ++ beTime e.arrival

/-- The Race Ring: the entry count, then the entries, oldest first (R114, R164). -/
def State.ringTable (s : State) : List Byte :=
  byteOf s.af.ring.length :: (s.af.ring.map RingEntry.bytes).flatten

/-- The race statistics of a port in the order of their table, with its WON and LOST counters (R112, R180). That the
counters stand after the statistics, WON before LOST, 4 bytes each, is a DESIGN CHOICE (log 33). -/
def State.raceBytes (s : State) (p : Port) : List Byte :=
  let r := s.af.race.get p
  beBytes 6 r.sum ++ beBytes 4 r.samples ++ beBytes 6 r.maximum
  ++ beBytes 4 (s.snu.counter (.port p .won)).value.toNat ++ beBytes 4 (s.snu.counter (.port p .lost)).value.toNat

/-- The race statistics of the ports named, ascending (R112). -/
def State.raceTable (s : State) (mask : BitVec 5) : List Byte := ((portsOf mask).map s.raceBytes).flatten

/-! ### Counters -/

/-- The rollover flags of a scope as a number, bit i for the counter in position i (R180). -/
def rolloverBits : List Counter → Nat
  | [] => 0
  | c :: cs => (if c.rollover then 1 else 0) + 2 * rolloverBits cs

/-- A scope's counters, then its rollover flags (R164, R180). -/
def Statistics.scopeBytes (n : Statistics) (scope : Scope) : List Byte :=
  let cs := n.scopeCounters scope
  (cs.map (fun c => beBytes 4 c.value.toNat)).flatten ++ beBytes (cs.length / 8) (rolloverBits cs)

/-- The counters of the scopes named (R151, R164). -/
def State.counterTable (s : State) (scopes : List Scope) : List Byte := (scopes.map s.snu.scopeBytes).flatten

/-! ### Station status -/

/-- The code of a result (R180). -/
def Result.toNat : Result → Nat
  | .accepted => 0 | .acceptedClamped => 1 | .refusedState => 2 | .refusedOperand => 3 | .unknown => 4
  | .configInvalid => 5

/-- The role bits of the status: the role, or a free value while the stored ROLE is none (R180, log 14). -/
def roleBits (draw : Nat) (g : Image) : Nat :=
  match Role.ofByte? g.role with
  | some r => r.toNat
  | none => (Config.unnamedRoleBits draw g.role).toNat

/-- A kind's marks and detail (R180). Bits 7..4 of the marks byte, which R180 does not name, are sent as 0: DESIGN
CHOICE (log 32). -/
def noticeBytes (g : Image) (n : NoticeSet) (k : NoticeKind) : List Byte :=
  let x := n.get k
  [bitByte 0 x.pending ||| bitByte 1 x.reported ||| bitByte 2 x.setSinceReport
    ||| bitByte 3 (g.enablesNotice k.toNat), x.detail]

/-- What the status says of one port (R164, R180). -/
def State.portStatus (s : State) (p : Port) : List Byte :=
  let r := s.link p
  let q := s.queue p
  [byteOf r.state.toNat, byteOf (r.fadeCause.elim 0 (fun c => c.toNat + 1)), byteOf (r.neighbour.elim 0 Prod.fst),
   byteOf q.c0.length, byteOf q.c1.length, byteOf q.c2.length, byteOf q.c3.length]

/-- The NOTICE_ORDER in force. Of the items only NOTICE_ENABLE acts in CONFIG; every other first acts at START (R168), so
until then the order is that of power-on (R169), whatever has been stored: DEDUCED (log 31). -/
def State.orderInForce (s : State) : Byte := if s.inService then s.image.noticeOrder else Image.defaults.noticeOrder

/-- The top notice of the chip (R159). -/
def State.topNotice (s : State) : Option NoticeKind :=
  Machine.topNotice s.draws s.orderInForce s.image s.snu.notices

/-- The station status, and then each port named (R164, R180). Bits 7..3 of byte 0 and bits 7..2 of byte 11, which R180
does not name, are sent as 0: DESIGN CHOICE (log 32). -/
def State.status (s : State) (mask : BitVec 5) : List Byte :=
  let g := s.image
  let l := s.slc.last
  [byteOf ((if s.inService then 1 else 0) + 2 * roleBits s.draws g), g.stationNumber, g.startNumber,
   l.transfer.elim 255 (fun t => byteOf t.type.toNat), l.transfer.elim 0 (fun t => if t.type = 0 then t.code else 0),
   byteOf l.result.toNat, byteOf (l.failing.getD 0)]
  ++ beBytes 2 s.fe.freeBuffers ++ beBytes 2 s.lpc.nextSequence.toNat
  ++ [bitByte 0 s.rc.full ||| bitByte 1 s.alarm, byteOf s.lpc.queue.length,
      byteOf (s.topNotice.elim 0 (fun k => k.toNat + 1))]
  ++ (NoticeKind.all.map (noticeBytes g s.snu.notices)).flatten
  ++ ((portsOf mask).map s.portStatus).flatten

/-! ### Time -/

/-- A capture stage: presence byte, IC, ST (R180). -/
def stageBytes (c : Option Stamp) : List Byte := optional 12 (c.map (fun x => beTime x.ic ++ beTime x.st))

/-- The latched part of a TIME_READ (R32, R180). Bits 7..3 of the flag byte, which R180 does not name, are sent as 0:
DESIGN CHOICE (log 32). -/
def TimeUnit.latched (t : TimeUnit) : List Byte :=
  beTime t.ic ++ beTime t.st ++ beSigned 4 t.trim
  ++ [bitByte 0 t.runMark ||| bitByte 1 t.schedule.armed ||| bitByte 2 (decide (t.schedule.action = .undrain))]
  ++ optional 6 (t.period.map beTime) ++ beBytes 2 t.edgesSeen ++ beBytes 1 t.missed
  ++ beTime t.schedule.target ++ [byteOf t.schedule.mask.toNat]

/-- The capture stages, shifted from the stages themselves: latest, then previous (R30, R180). -/
def TimeUnit.stages (t : TimeUnit) : List Byte := stageBytes t.latest ++ stageBytes t.previous

end Sys2Proof.Machine
end

