-- ==== Sys2Proof/Machine/Transfers.lean ====
section
/-! DEFINITION. Service-line transfers over the state: addressing, the holding of the capture stages by a TIME_READ,
reads and commands with their results (R30, R161 to R167). -/

namespace Sys2Proof.Machine

/-- The bytes shifted out of a read's data in `clocks` byte times: each byte past the end is 0, and a read released
before the end loses the rest (R163). -/
def shiftOut (data : List Byte) (clocks : Nat) : List Byte :=
  data.take clocks ++ List.replicate (clocks - data.length) 0

/-- The capture in the hold place applied, and the hold place emptied (R30). -/
def State.applyHeld (s : State) : State :=
  match s.tu.held with
  | none => s
  | some c => { s with tu := { s.tu with held := none } }.applyCapture c

/-- The release of select of a TIME_READ in progress: its data has been shifted out, the stages from the stages
themselves, and a held capture is applied (R30, R32). -/
def State.endTimeRead (s : State) (clocks : Nat) : State :=
  if s.slc.timeRead then
    { s with slc := { s.slc with timeRead := false,
                                 dataOut := shiftOut (s.slc.snapshot ++ s.tu.stages) clocks } }.applyHeld
  else s

/-- A transfer on the shared line with device code `dev`: a TIME_READ still in progress has been released before
select was asserted anew (log 7), and a chip of another code ignores the transfer (R161). -/
def State.transfer (s : State) (dev : BitVec 2) (f : State → State) : State :=
  let s1 := s.endTimeRead 0
  if dev = s1.slc.deviceCode then f s1 else s1

/-- A read of a snapshot: the data is latched into the snapshot buffer and shifted out (R163). -/
def State.read (s : State) (data : List Byte) (clocks : Nat) : State :=
  { s with slc := { s.slc with snapshot := data, dataOut := shiftOut data clocks } }

/-- A read whose data drew on free values: the next draw is another (log 13). -/
def State.drew (s : State) : State := { s with draws := s.draws + 1 }

/-- A command taken only in SERVICE: in CONFIG it is refused REFUSED_STATE before any test of its operands
(R167). -/
def State.serviceCommand (s : State) (code : Byte) (f : State → State) : State :=
  if s.inService then f s else s.setResult (commandName code) .refusedState none

/-- The command ACCEPTED (R166). -/
def State.accept (s : State) (code : Byte) : State := s.setResult (commandName code) .accepted none

/-- The command refused for its operand (R166). -/
def State.refuseOperand (s : State) (code : Byte) : State := s.setResult (commandName code) .refusedOperand none

end Sys2Proof.Machine
end

