-- ==== Sys2Proof/Machine/Clock.lean ====
section
/-! DEFINITION. The tick of the interval clock, which is what `step` does on an empty queue: the clocks advance, fade
time accrues, and each expiry or match that falls due is put into the queue as its command (log 1, log 2). -/

namespace Sys2Proof.Machine

/-- Whether the hail timer runs and has expired (R41). -/
def LinkRecord.hailExpired (r : LinkRecord) (g : Image) (now : Time) : Bool :=
  match r.hailTimer with
  | some t => expired now t g.hailNs
  | none => false

/-- A command, if it is due. -/
def dueIf (b : Bool) (c : Instr) : List Instr := if b then [c] else []

/-- The commands that fall due on a port at this instant, in the order of log 2. -/
def State.dueOn (s : State) (p : Port) : List Instr :=
  let r := s.link p
  dueIf (decide (fadeUnit ≤ r.fadeRemainder)) (.fadeTimeAccrual p)
  ++ dueIf (r.silenceExpired s.image s.now) (.silenceExpiry p)
  ++ dueIf (r.timerExpired .hold s.now) (.holdExpiry p)
  ++ dueIf (r.timerExpired .trial s.now) (.trialExpiry p)
  ++ dueIf (r.timerExpired .settle s.now) (.settleExpiry p)
  ++ dueIf (r.hailExpired s.image s.now) (.hailTimerExpiry p)

/-- The commands that fall due at this instant: ports ascending, then the schedule channel (log 2). -/
def State.due (s : State) : List Instr :=
  (Port.all.map s.dueOn).flatten ++ dueIf s.tu.scheduleDue .scheduleMatch

/-- The clocks advanced by `d` ns, with the fade time of every port (R20, R23, R81). -/
def State.advance (s : State) (d : Nat) : State :=
  { s with tu := s.tu.advance d,
           lm := ⟨s.lm.p0.accrue d, s.lm.p1.accrue d, s.lm.p2.accrue d, s.lm.p3.accrue d, s.lm.p4.accrue d⟩ }

/-- One tick: while the reset pin is held the clocks stand at 0 (R20, R23); otherwise they advance by one tick, and
what falls due joins the queue. -/
def State.tick (s : State) : State :=
  if s.resetHeld then s
  else
    let s1 := s.advance Config.tickNs
    { s1 with pending := s1.pending ++ s1.due }

end Sys2Proof.Machine
end

