-- ==== Sys2Proof/Machine/Resets.lean ====
section
/-! DEFINITION. The meanings of the reset pin's two events: POWER_ON and POWER_ON_RESET_RELEASE. -/

namespace Sys2Proof.Machine

/-- The outcome of a command that runs. -/
abbrev Outcome := Host.Outcome State Fault Refusal

/-- POWER_ON: every piece of state at its power-on value (R19, R20, R29, R37, R39, R85, R100, R110, R113, R132,
R147, R148, R154, R161, R166, R169). A reply or a delivery being sent is cut short and ended with an abort
indication (R147). What the equipment shows on delivery ready stays (log 6). -/
def execPowerOn (s : State) : Outcome :=
  .next { State.reset with
    pending := s.pending, draws := s.draws,
    lpc := { LocalPort.powerOn with
      deliveryReady := s.lpc.deliveryReady,
      outwardEnd := if s.lpc.delivering.isSome || s.lpc.replySending then some .abort else none } }

/-- POWER_ON_RESET_RELEASE: the clocks begin to count (R20, R23), and the straps are sampled as the device code
(R161). No effect while the pin is not asserted (log 4). -/
def execPowerOnResetRelease (dc : BitVec 2) (s : State) : Outcome :=
  .next (if s.resetHeld then { s with resetHeld := false, slc := { s.slc with deviceCode := dc } } else s)

end Sys2Proof.Machine
end

