-- ==== Sys2Proof/Machine/LineEvents.lean ====
section
/-! DEFINITION. The meanings of the line ports' events: arrivals, status words and departures (chapters 1, 3, 4, 6
and 7). -/

namespace Sys2Proof.Machine

/-- A traffic frame begins to arrive: it takes a free buffer, or is refused where there is none (R11, R12, R27). -/
def State.beginTraffic (s : State) (p : Port) : State :=
  match s.fe.grant s.tu.stamp (.line p) .blank [] with
  | some (i, fe) => { s with fe := fe }.setRx p (.traffic i)
  | none => (s.count (.port p .rxNoBuffer)).setRx p .unstored

/-- ARRIVAL_START (R5, R11, R12): on a disabled port or in CONFIG the frame is discarded whole. A port receives one
frame at a time: while one is in reception no other begins (log 4). -/
def execArrivalStart (p : Port) (cls : Byte) (s : State) : Outcome :=
  .next (
    if s.follows p && decide (s.rx p = .idle) then
      if cls = classTraffic then s.beginTraffic p
      else if cls = classHail then s.setRx p (.hail s.now)
      else s.setRx p .unknownClass
    else s)

/-- The hand-over of a good frame in buffer `b`, whose header already carries the hop step and the hop delay: the
verdict with its counts, then the copies of a FIRST (R15, R101, R109). -/
def State.handOver (s : State) (p : Port) (b : Buffer) : State :=
  let h := b.header
  let j := judge s.image.number s.image.idleNs s.now s.af.slots h.origin h.startNumber h.sequence
  let s1 := { s with af := s.af.after j p b.stamp.ic h.origin h.startNumber h.sequence }
  let s2 := (s1.count (j.verdict.counter p)).countIf j.restart (.station .originRestart)
  if j.verdict = .first then (s2.makeCopies b).1 else s2

/-- A good traffic frame in buffer `i`: the hop step, the hop delay, the hand-over, and the release of the arrival's
reference (R14, R15, R118). -/
def State.goodTraffic (s : State) (p : Port) (i : Nat) (h : RouteHeader) (payload : List Byte) : State :=
  let h' := h.hopStep.addHop (s.link p).delay
  let s1 := { s with fe := s.fe.update i (fun b => { b with header := h', payload := payload }) }
  match s1.fe.buffer? i with
  | some b => (s1.handOver p b).release i
  | none => s1

/-- The end of a traffic frame held in buffer `i`: the tests of R13, then R14 and R15. -/
def State.endTraffic (s : State) (p : Port) (i : Nat) (f : Frame) : State :=
  match checkTraffic f with
  | none => (s.count (.port p .rxCheckErr)).release i
  | some (h, payload) => (s.count (.port p .rxGood)).goodTraffic p i h payload

/-- TRAFFIC_ARRIVAL_COMPLETION (R11 to R15, R19): the end of the traffic frame, or the frame of unknown class, in
reception on the port; no effect where none is (log 4). -/
def execTrafficArrivalCompletion (p : Port) (f : Frame) (s : State) : Outcome :=
  .next (
    match s.rx p with
    | .traffic i => (s.setRx p .idle).endTraffic p i f
    | .unstored => s.setRx p .idle
    | .unknownClass => (s.setRx p .idle).count (.port p .rxCheckErr)
    | .abandonedTraffic i => (s.setRx p .idle).release i
    | .abandonedUnknown => s.setRx p .idle
    | .idle | .hail _ | .abandonedHail => s)

/-- HAIL_ARRIVAL_COMPLETION (R16, R19, R46): the end of the HAIL in reception on the port; no effect where none is
(log 4). -/
def execHailArrivalCompletion (p : Port) (f : Frame) (s : State) : Outcome :=
  .next (
    match s.rx p with
    | .hail arrival =>
      match checkHail f with
      | none => (s.setRx p .idle).count (.port p .rxCheckErr)
      | some h => ((s.setRx p .idle).count (.port p .hailRx)).hail p arrival h
    | .abandonedHail => s.setRx p .idle
    | _ => s)

/-- MODEM_STATUS_WORD (R17, R61, R177): discarded in CONFIG, on a disabled port, on port 4, which has no status
channel, and where it was cut off before its third byte. -/
def execModemStatusWord (p : Port) (word : List Byte) (s : State) : Outcome :=
  .next (
    if s.follows p && !fibrePort p then
      match StatusWord.read word with
      | some w => s.statusWord p w
      | none => s
    else s)

/-- DEPARTURE_COMPLETION (R18): TX_TRAFFIC is counted and the reference released for a traffic copy, nothing is
counted for a HAIL, and the port selects again. No effect on an idle port (log 4). -/
def execDepartureCompletion (p : Port) (s : State) : Outcome :=
  .next (
    match s.tx p with
    | .idle => s
    | .hail _ => (s.setTx p .idle).select p
    | .traffic i _ => (((s.count (.port p .txTraffic)).release i).setTx p .idle).select p)

end Sys2Proof.Machine
end

