-- ==== Sys2Proof/Machine/Expiries.lean ====
section
/-! DEFINITION. The meanings of the expiries, of fade time accrual and of the Time Unit's events. An expiry whose
timer does not run, or has not expired, does not happen: the command then has no effect (R77, R82, log 3). -/

namespace Sys2Proof.Machine

/-- HAIL_TIMER_EXPIRY (R41, R42): hail due is set, or the expiry merges with a HAIL already due; the next expiry is
one HAIL_INTERVAL later; an idle port sends the HAIL at once. -/
def execHailTimerExpiry (p : Port) (s : State) : Outcome :=
  let r := s.link p
  .next (
    if r.hailExpired s.image s.now then
      (s.setLink p { r with hailTimer := r.hailTimer.map (· + BitVec.ofNat 48 s.image.hailNs),
                            hailDue := true }).select p
    else s)

/-- SILENCE_EXPIRY (R52). -/
def execSilenceExpiry (p : Port) (s : State) : Outcome :=
  .next (if (s.link p).silenceExpired s.image s.now then s.silent p else s)

/-- HOLD_EXPIRY (R71). -/
def execHoldExpiry (p : Port) (s : State) : Outcome :=
  .next (if (s.link p).timerExpired .hold s.now then s.timerEvent p else s)

/-- TRIAL_EXPIRY (R71). -/
def execTrialExpiry (p : Port) (s : State) : Outcome :=
  .next (if (s.link p).timerExpired .trial s.now then s.timerEvent p else s)

/-- SETTLE_EXPIRY (R72). -/
def execSettleExpiry (p : Port) (s : State) : Outcome :=
  .next (if (s.link p).timerExpired .settle s.now then s.settleEvent p else s)

/-- FADE_TIME_ACCRUAL (R81): 1,000 ns accrued are taken from the remainder and counted as one microsecond. -/
def execFadeTimeAccrual (p : Port) (s : State) : Outcome :=
  let r := s.link p
  .next (
    if fadeUnit ≤ r.fadeRemainder then
      (s.setLink p { r with fadeRemainder := r.fadeRemainder - fadeUnit }).count (.port p .fadeTimeUs)
    else s)

/-- TIN_RISING_EDGE (R28, R30, R31): the edge is stamped and counted; its capture is applied at once, or held while a
TIME_READ of this chip is in progress. -/
def execTinRisingEdge (s : State) : Outcome :=
  let c := s.tu.stamp
  let s1 := { s with tu := s.tu.countEdge }
  .next (if s.slc.timeRead then { s1 with tu := s1.tu.hold c } else s1.applyCapture c)

/-- SCHEDULE_MATCH (R34, R35). -/
def execScheduleMatch (s : State) : Outcome := .next s.scheduleEvent

end Sys2Proof.Machine
end

