-- ==== Sys2Proof/Machine/LocalEvents.lean ====
section
/-! DEFINITION. The meanings of the local port's events: ingress, replies and deliveries (chapter 8). -/

namespace Sys2Proof.Machine

/-- INGRESS_START (R134, R135): a request begins; one that begins while request ready is withdrawn, that is, while a
reply is due, is marked to be discarded. One request at a time (log 4). -/
def execIngressStart (s : State) : Outcome :=
  .next (
    match s.lpc.request with
    | none => { s with lpc := { s.lpc with request := some s.lpc.reply.isSome } }
    | some _ => s)

/-- The first of tests 1 to 5 of R136 that a request fails. -/
def State.ingressCause? (s : State) (q : IngressRequest) : Option IngressCause :=
  let g := s.image
  if !s.inService then some .notInService
  else if g.roleOf = .relay ∨ (q.kind = .flood ∧ g.roleOf ≠ .source) then some .role
  else if q.payload.length < 8 ∨ 1024 < q.payload.length then some .length
  else
    match q.kind with
    | .flood => none
    | .aimed =>
      if q.target < 1 ∨ 63 < q.target ∨ q.target = g.number then some .target
      else
        match s.rc.entry? q.target with
        | none => some .noRoute
        | some e => if e.own < Config.unreachable then none else some .noRoute

/-- A reply falls due: request ready is withdrawn, and the reply is sent at once if the outward path is idle
(R134). -/
def State.replyDue (s : State) (r : Reply) : State := { s with lpc := { s.lpc with reply := some r } }.sendReply

/-- A refused request: a reply with its cause, counted INGRESS_REFUSED (R137). -/
def State.refuseIngress (s : State) (c : IngressCause) : State :=
  (s.count (.station .ingressRefused)).replyDue (.refused c)

/-- The header an accepted request's message gets (R138). -/
def State.ingressHeader (s : State) (q : IngressRequest) : RouteHeader :=
  { kind := q.kind, origin := s.image.number, startNumber := s.image.startNumber, sequence := s.lpc.nextSequence,
    target := match q.kind with | .flood => 0 | .aimed => q.target,
    urgency := q.urgency, budget := s.image.initBudget.toNat, hops := 0, originStamp := s.tu.st, routeDelay := 0,
    inexact := false, length := q.payload.length }

/-- The next-sequence counter advanced (R138, R141). -/
def State.advanceSequence (s : State) : State :=
  { s with lpc := { s.lpc with nextSequence := s.lpc.nextSequence + 1 } }

/-- A request that passed tests 1 to 5: test 6 asks for a buffer; an accepted message is marked in slot 0 and the
ring, its copies are placed, the ingress releases its reference, and the reply falls due (R136 to R140). -/
def State.acceptIngress (s : State) (q : IngressRequest) : State :=
  match s.fe.grant s.tu.stamp .loc (s.ingressHeader q) q.payload with
  | none => s.refuseIngress .noBuffer
  | some (i, fe) =>
    let s1 := { s with fe := fe, af := s.af.ingress s.lpc.nextSequence s.now }.advanceSequence
    let r := s1.copiesOf i
    ((r.1.release i).count (.station .ingressOk)).replyDue (.accepted s.lpc.nextSequence s.tu.st r.2)

/-- A request judged at its ingress completion (R136). -/
def State.judgeIngress (s : State) (q : IngressRequest) : State :=
  match s.ingressCause? q with
  | some c => s.refuseIngress c
  | none => s.acceptIngress q

/-- INGRESS_COMPLETION (R134 to R140): a request marked to be discarded, or ended with an abort, is discarded; any
other is judged. No effect where no request is in progress (log 4). -/
def execIngressCompletion (bytes : List Byte) (aborted : Bool) (s : State) : Outcome :=
  .next (
    match s.lpc.request with
    | none => s
    | some discard =>
      let s1 := { s with lpc := { s.lpc with request := none } }
      if discard || aborted then s1
      else s1.drew.judgeIngress (.read (Config.missingRequestByte s.draws) bytes))

/-- REPLY_END (R134): request ready is shown again, and the outward path tests for a delivery. No effect where no
reply is being sent (log 4). -/
def execReplyEnd (s : State) : Outcome :=
  .next (
    if s.lpc.replySending then
      { s with lpc := { s.lpc with reply := none, replySending := false,
                                   outwardEnd := some .normal } }.tryDeliver
    else s)

/-- DELIVERY_READY (R143). -/
def execDeliveryReady (s : State) : Outcome :=
  .next { s with lpc := { s.lpc with deliveryReady := true } }.tryDeliver

/-- DELIVERY_READY_WITHDRAWN (R145): no further delivery start; a delivery in progress runs on. -/
def execDeliveryReadyWithdrawn (s : State) : Outcome :=
  .next { s with lpc := { s.lpc with deliveryReady := false } }

/-- The head of the Delivery Queue removed and its reference released (R145). -/
def State.dropDeliveryHead (s : State) : State :=
  match s.lpc.queue with
  | [] => s
  | i :: rest => (s.setDeliveries rest).release i

/-- DELIVERY_COMPLETION (R145): the entry leaves the queue, its reference is released, DELIVERED is counted; then the
due reply is sent, or the next delivery is tested for. No effect where no delivery is in progress (log 4). -/
def execDeliveryCompletion (s : State) : Outcome :=
  .next (
    if s.lpc.delivering.isSome then
      let s1 := (s.dropDeliveryHead).count (.station .delivered)
      { s1 with lpc := { s1.lpc with delivering := none, outwardEnd := some .normal } }.sendReply.tryDeliver
    else s)

end Sys2Proof.Machine
end

