-- ==== Sys2Proof/Machine/Commands.lean ====
section
/-! DEFINITION. The meanings of the service line's writes: the ten commands, an unknown command, CONFIG_WRITE, and the
transfers without effect (chapters 2, 4, 9 and 10). Each takes effect at the release of select, as one event, and
sets the last-command result there (R165, R166). -/

namespace Sys2Proof.Machine

/-- Each port's value replaced by a function of the port and the value. -/
def PerPort.mapPort {α : Type} (v : PerPort α) (f : Port → α → α) : PerPort α :=
  ⟨f .p0 v.p0, f .p1 v.p1, f .p2 v.p2, f .p3 v.p3, f .p4 v.p4⟩

/-- Every port selects, in ascending order: the HAILs that START and REJOIN make due depart (R39, R40, log 10). -/
def State.selectAll (s : State) : State := Port.all.foldl State.select s

/-! ### START -/

/-- What START does to the blocks: SERVICE, enabled ports to SEEKING with a HAIL due, the own Cost Table entry, slot 0
(R39, R66, R85, R99, R171). -/
def State.startBlocks (s : State) : State :=
  let g := s.image
  { s with
    slc := { s.slc with station := .service }
    lm := s.lm.mapPort (fun p r => if g.enables p then r.start g s.now else r)
    rc := s.rc.start g
    af := s.af.start g s.lpc.nextSequence s.now }

/-- The command code of START, and so on for the ten commands (R179). -/
def codeStart : Byte := 1
/-- REJOIN's code. -/
def codeRejoin : Byte := 2
/-- FORCE's code. -/
def codeForce : Byte := 3
/-- ARM_SCHEDULE's code. -/
def codeArm : Byte := 4
/-- DISARM's code. -/
def codeDisarm : Byte := 5
/-- TIME_STEP's code. -/
def codeStep : Byte := 6
/-- TIME_TRIM's code. -/
def codeTrim : Byte := 7
/-- CLEAR_COUNTERS's code. -/
def codeClearCounters : Byte := 8
/-- CLEAR_ROLLOVER's code. -/
def codeClearRollover : Byte := 9
/-- ACK_NOTICES's code. -/
def codeAck : Byte := 10

/-- START taken by this chip: refused in SERVICE; in CONFIG the image is tested, and a sound one starts every block
(R167, R170, R171). -/
def State.startCommand (s : State) : State :=
  if s.inService then s.setResult (commandName codeStart) .refusedState none
  else
    match s.image.firstFailing with
    | some i => s.setResult (commandName codeStart) .configInvalid (some i)
    | none => (s.startBlocks.accept codeStart).selectAll

/-- START (R170, R171). -/
def execStart (dev : BitVec 2) (s : State) : Outcome := .next (s.transfer dev State.startCommand)

/-! ### REJOIN -/

/-- A reception abandoned by REJOIN (R19). -/
def Reception.abandon : Reception → Reception
  | .traffic i => .abandonedTraffic i
  | .hail _ => .abandonedHail
  | .unknownClass => .abandonedUnknown
  | x => x

/-- The buffers that an Egress Queue's entries refer to. -/
def EgressQueue.buffers (q : EgressQueue) : List Nat := q.entries.map Prod.snd

/-- Every Egress Queue and the Delivery Queue emptied, every entry's reference released, nothing counted (R133,
R147). -/
def State.emptyQueues (s : State) : State :=
  let held := (s.fe.queues.toList.map EgressQueue.buffers).flatten ++ s.lpc.queue
  let s1 := s.releaseAll held
  { s1 with fe := { s1.fe with queues := .fill .empty }, lpc := { s1.lpc with queue := [] } }

/-- The delivery in progress cut short, ended with an abort indication (R147). -/
def LocalPort.cutDelivery (l : LocalPort) : LocalPort :=
  if l.delivering.isSome then { l with delivering := none, outwardEnd := some .abort } else l

/-- What REJOIN does to the blocks (R19, R29, R37, R40, R83, R85, R100, R110, R133, R147, R148, R154). -/
def State.rejoinBlocks (s : State) : State :=
  let g := s.image
  let s1 := s.emptyQueues
  { s1 with
    li := s1.li.mapPort (fun _ i => { i with rx := i.rx.abandon })
    tu := { s1.tu.disarm with runMark := false }
    lm := s1.lm.mapPort (fun p r => if r.enabled then r.rejoin g (fibrePort p) s.now else r)
    rc := s1.rc.rejoin g
    af := { s1.af with ring := [] }
    lpc := s1.lpc.cutDelivery
    snu := { s1.snu with notices := .empty } }

/-- REJOIN taken by this chip in SERVICE (R172). The recompute of R83 leaves the table as R85 sets it. A reply that
waited for a delivery now cut short is sent, and every idle port sends its HAIL. -/
def State.rejoinCommand (s : State) : State :=
  s.serviceCommand codeRejoin (fun s => ((s.rejoinBlocks.recompute.accept codeRejoin).sendReply).selectAll)

/-- REJOIN (R172). -/
def execRejoin (dev : BitVec 2) (s : State) : Outcome := .next (s.transfer dev State.rejoinCommand)

/-! ### Links and time -/

/-- FORCE (R76). -/
def execForce (dev : BitVec 2) (mask : BitVec 5) (actions : List Byte) (s : State) : Outcome :=
  .next (s.transfer dev (fun s => s.serviceCommand codeForce (fun s =>
    match forceActions? (portsOf mask) actions with
    | none => s.refuseOperand codeForce
    | some l => (s.actAll l).accept codeForce)))

/-- ARM_SCHEDULE (R33): the channel is armed, and tested at the same release (R34). -/
def execArmSchedule (dev : BitVec 2) (target : Time) (action : Byte) (mask : BitVec 5) (s : State) : Outcome :=
  .next (s.transfer dev (fun s => s.serviceCommand codeArm (fun s =>
    match scheduleAction? action with
    | none => s.refuseOperand codeArm
    | some a =>
      ({ s with tu := { s.tu with schedule := ⟨true, target, a, mask⟩ } }.scheduleEvent).accept codeArm)))

/-- DISARM (R36). -/
def execDisarm (dev : BitVec 2) (s : State) : Outcome :=
  .next (s.transfer dev (fun s => s.serviceCommand codeDisarm (fun s =>
    { s with tu := s.tu.disarm }.accept codeDisarm)))

/-- Station time or the trim changed by a command. While the reset pin is asserted both are held at 0 (R23), and the
command leaves them so (log 5). -/
def State.adjustTime (s : State) (f : TimeUnit → TimeUnit) : State :=
  if s.resetHeld then s else { s with tu := f s.tu }

/-- TIME_STEP (R25), taken in CONFIG and in SERVICE: an accepted step tests the schedule channel (R34). -/
def execTimeStep (dev : BitVec 2) (offset : BitVec 32) (s : State) : Outcome :=
  .next (s.transfer dev (fun s =>
    if stepLimit < |offset.toInt| then s.refuseOperand codeStep
    else ((s.adjustTime (fun t => t.step offset.toInt)).scheduleEvent).accept codeStep))

/-- TIME_TRIM (R24), taken in CONFIG and in SERVICE. -/
def execTimeTrim (dev : BitVec 2) (trim : BitVec 32) (s : State) : Outcome :=
  .next (s.transfer dev (fun s =>
    let x := trim.toInt
    (s.adjustTime (fun t => { t with trim := clampTrim x })).setResult (commandName codeTrim)
      (if clampTrim x = x then .accepted else .acceptedClamped) none))

/-! ### Counters and notices -/

/-- One scope cleared by CLEAR_COUNTERS: its counters and marks, and for a port its fade time remainder and race
statistics (R81, R113, R152). -/
def State.clearScope (s : State) (scope : Scope) : State :=
  let s1 := { s with snu := s.snu.clearScope scope }
  match scope with
  | .port p =>
    { s1.setLink p (s1.link p).clearFadeTime with
      af := { s1.af with race := s1.af.race.set p ⟨0, 0, 0⟩ } }
  | .station => s1

/-- CLEAR_COUNTERS (R152). -/
def execClearCounters (dev : BitVec 2) (mask : BitVec 5) (station : Bool) (s : State) : Outcome :=
  .next (s.transfer dev (fun s => s.serviceCommand codeClearCounters (fun s =>
    ((scopesOf mask station).foldl State.clearScope s).accept codeClearCounters)))

/-- Each counter set of a CLEAR_ROLLOVER acted on (R153). -/
def Statistics.clearRollovers (n : Statistics) (l : List (Scope × Nat)) : Statistics :=
  l.foldl (fun n x => n.clearRollover x.1 x.2) n

/-- CLEAR_ROLLOVER (R153). -/
def execClearRollover (dev : BitVec 2) (mask : BitVec 5) (station : Bool) (sets : List Byte) (s : State) : Outcome :=
  .next (s.transfer dev (fun s => s.serviceCommand codeClearRollover (fun s =>
    match rolloverSets? (scopesOf mask station) sets with
    | none => s.refuseOperand codeClearRollover
    | some l =>
      { s with snu := s.snu.clearRollovers l }.accept codeClearRollover)))

/-- ACK_NOTICES (R158). -/
def execAckNotices (dev : BitVec 2) (kinds : Byte) (s : State) : Outcome :=
  .next (s.transfer dev (fun s => s.serviceCommand codeAck (fun s =>
    if 64 ≤ kinds.toNat then s.refuseOperand codeAck
    else (s.setNotices (s.snu.notices.acked kinds)).accept codeAck)))

/-! ### Other writes -/

/-- UNKNOWN_COMMAND (R167). -/
def execUnknownCommand (dev : BitVec 2) (code : Byte) (s : State) : Outcome :=
  .next (s.transfer dev (fun s => s.setResult (commandName code) .unknown none))

/-- The name of a CONFIG_WRITE transfer, type 1 (R162). -/
def configWriteName : TransferName := ⟨1, 0⟩

/-- CONFIG_WRITE taken by this chip (R168, R179). A body that ends within a record is cut short: no effect, and the
result stays (R165). -/
def State.configWrite (s : State) (body : List Byte) : State :=
  match itemRecords body with
  | .cutShort => s
  | .badItem => s.setResult configWriteName (if s.inService then .refusedState else .refusedOperand) none
  | .records l =>
    if s.inService then s.setResult configWriteName .refusedState none
    else { s with slc := { s.slc with image := s.image.writeAll l } }.setResult configWriteName .accepted none

/-- CONFIG_WRITE (R168). -/
def execConfigWrite (dev : BitVec 2) (body : List Byte) (s : State) : Outcome :=
  .next (s.transfer dev (fun s => s.configWrite body))

/-- UNKNOWN_TRANSFER_TYPE (R162): no effect on any block, UNKNOWN recorded at the release. -/
def execUnknownTransferType (dev : BitVec 2) (type : BitVec 3) (s : State) : Outcome :=
  .next (s.transfer dev (fun s => s.setResult ⟨type, 0⟩ .unknown none))

/-- TRANSFER_CUT_SHORT (R162, R165): discarded with no effect, the last-command result unchanged. -/
def execTransferCutShort (s : State) : Outcome := .next (s.endTimeRead 0)

end Sys2Proof.Machine
end

