-- ==== Sys2Proof/Machine/Reads.lean ====
section
/-! DEFINITION. The meanings of the service line's reads: each latches its data into the snapshot buffer at its latch
point, makes the markings its type makes, and shifts the data out (R156, R151, R163, R164, R30, R32). -/

namespace Sys2Proof.Machine

/-- STATUS_READ (R156, R164): the snapshot shows the marks as they stood; then every pending kind is marked. -/
def execStatusRead (dev : BitVec 2) (mask : BitVec 5) (clocks : Nat) (s : State) : Outcome :=
  .next (s.transfer dev (fun s =>
    (((s.read (s.status mask) clocks).setNotices s.snu.notices.marked).drew)))

/-- COUNTER_READ (R151): the snapshot shows the flags as they stood; then the wrap-since-read marks it covers are
cleared. -/
def execCounterRead (dev : BitVec 2) (mask : BitVec 5) (station : Bool) (clocks : Nat) (s : State) : Outcome :=
  .next (s.transfer dev (fun s =>
    { s.read (s.counterTable (scopesOf mask station)) clocks with
      snu := (scopesOf mask station).foldl Statistics.readScope s.snu }))

/-- TABLE_READ, selector LINK (R164). -/
def execTableReadLink (dev : BitVec 2) (mask : BitVec 5) (clocks : Nat) (s : State) : Outcome :=
  .next (s.transfer dev (fun s => (s.read (s.linkTable mask) clocks).drew))

/-- TABLE_READ, selector COST (R164). -/
def execTableReadCost (dev : BitVec 2) (clocks : Nat) (s : State) : Outcome :=
  .next (s.transfer dev (fun s => s.read s.costTable clocks))

/-- TABLE_READ, selector SEEN (R114). -/
def execTableReadSeen (dev : BitVec 2) (clocks : Nat) (s : State) : Outcome :=
  .next (s.transfer dev (fun s => (s.read s.seenTable clocks).drew))

/-- TABLE_READ, selector RING (R114). -/
def execTableReadRing (dev : BitVec 2) (clocks : Nat) (s : State) : Outcome :=
  .next (s.transfer dev (fun s => s.read s.ringTable clocks))

/-- TABLE_READ, selector RACE (R112, R114). -/
def execTableReadRace (dev : BitVec 2) (mask : BitVec 5) (clocks : Nat) (s : State) : Outcome :=
  .next (s.transfer dev (fun s => s.read (s.raceTable mask) clocks))

/-- TABLE_READ, selector CONFIG (R164, R181). -/
def execTableReadConfig (dev : BitVec 2) (clocks : Nat) (s : State) : Outcome :=
  .next (s.transfer dev (fun s => s.read s.image.bytes clocks))

/-- The name of a TABLE_READ transfer, type 4 (R162). -/
def tableReadName : TransferName := ⟨4, 0⟩

/-- TABLE_READ with an unknown selector (R164): no data, every byte shifted out 0, UNKNOWN at the release. -/
def execTableReadUnknown (dev : BitVec 2) (clocks : Nat) (s : State) : Outcome :=
  .next (s.transfer dev (fun s => (s.read [] clocks).setResult tableReadName .unknown none))

/-- TIME_READ to its latch point (R32): the time snapshot is latched, and the stages are held until the release
(R30). -/
def execTimeRead (dev : BitVec 2) (s : State) : Outcome :=
  .next (s.transfer dev (fun s => { s with slc := { s.slc with timeRead := true, snapshot := s.tu.latched } }))

/-- TIME_READ_RELEASE (R30). No effect where no TIME_READ of this chip is in progress (log 4). -/
def execTimeReadRelease (clocks : Nat) (s : State) : Outcome := .next (s.endTimeRead clocks)

end Sys2Proof.Machine
end

