-- ==== Sys2Proof/Machine/Dispatch.lean ====
section
/-! DEFINITION. exec: one arm per command of the block. -/

namespace Sys2Proof.Machine

def exec (i : Instr) (s : State) : Host.Outcome State Fault Refusal :=
  match i with
  | .powerOn => Sys2Proof.Machine.execPowerOn s
  | .powerOnResetRelease dc => Sys2Proof.Machine.execPowerOnResetRelease dc s
  | .arrivalStart p cls => Sys2Proof.Machine.execArrivalStart p cls s
  | .trafficArrivalCompletion p f => Sys2Proof.Machine.execTrafficArrivalCompletion p f s
  | .hailArrivalCompletion p f => Sys2Proof.Machine.execHailArrivalCompletion p f s
  | .modemStatusWord p word => Sys2Proof.Machine.execModemStatusWord p word s
  | .hailTimerExpiry p => Sys2Proof.Machine.execHailTimerExpiry p s
  | .silenceExpiry p => Sys2Proof.Machine.execSilenceExpiry p s
  | .holdExpiry p => Sys2Proof.Machine.execHoldExpiry p s
  | .trialExpiry p => Sys2Proof.Machine.execTrialExpiry p s
  | .settleExpiry p => Sys2Proof.Machine.execSettleExpiry p s
  | .fadeTimeAccrual p => Sys2Proof.Machine.execFadeTimeAccrual p s
  | .departureCompletion p => Sys2Proof.Machine.execDepartureCompletion p s
  | .tinRisingEdge => Sys2Proof.Machine.execTinRisingEdge s
  | .scheduleMatch => Sys2Proof.Machine.execScheduleMatch s
  | .ingressCompletion bytes aborted => Sys2Proof.Machine.execIngressCompletion bytes aborted s
  | .replyEnd => Sys2Proof.Machine.execReplyEnd s
  | .deliveryReady => Sys2Proof.Machine.execDeliveryReady s
  | .deliveryCompletion => Sys2Proof.Machine.execDeliveryCompletion s
  | .start dev => Sys2Proof.Machine.execStart dev s
  | .rejoin dev => Sys2Proof.Machine.execRejoin dev s
  | .force dev mask actions => Sys2Proof.Machine.execForce dev mask actions s
  | .armSchedule dev target action mask => Sys2Proof.Machine.execArmSchedule dev target action mask s
  | .disarm dev => Sys2Proof.Machine.execDisarm dev s
  | .timeStep dev offset => Sys2Proof.Machine.execTimeStep dev offset s
  | .timeTrim dev trim => Sys2Proof.Machine.execTimeTrim dev trim s
  | .clearCounters dev mask station => Sys2Proof.Machine.execClearCounters dev mask station s
  | .clearRollover dev mask station sets => Sys2Proof.Machine.execClearRollover dev mask station sets s
  | .ackNotices dev kinds => Sys2Proof.Machine.execAckNotices dev kinds s
  | .unknownCommand dev code => Sys2Proof.Machine.execUnknownCommand dev code s
  | .configWrite dev body => Sys2Proof.Machine.execConfigWrite dev body s
  | .statusRead dev mask clocks => Sys2Proof.Machine.execStatusRead dev mask clocks s
  | .counterRead dev mask station clocks => Sys2Proof.Machine.execCounterRead dev mask station clocks s
  | .tableReadLink dev mask clocks => Sys2Proof.Machine.execTableReadLink dev mask clocks s
  | .tableReadCost dev clocks => Sys2Proof.Machine.execTableReadCost dev clocks s
  | .tableReadSeen dev clocks => Sys2Proof.Machine.execTableReadSeen dev clocks s
  | .tableReadRing dev clocks => Sys2Proof.Machine.execTableReadRing dev clocks s
  | .tableReadRace dev mask clocks => Sys2Proof.Machine.execTableReadRace dev mask clocks s
  | .tableReadConfig dev clocks => Sys2Proof.Machine.execTableReadConfig dev clocks s
  | .tableReadUnknown dev clocks => Sys2Proof.Machine.execTableReadUnknown dev clocks s
  | .timeRead dev => Sys2Proof.Machine.execTimeRead dev s
  | .timeReadRelease clocks => Sys2Proof.Machine.execTimeReadRelease clocks s
  | .unknownTransferType dev type => Sys2Proof.Machine.execUnknownTransferType dev type s
  | .transferCutShort => Sys2Proof.Machine.execTransferCutShort s
  | .ingressStart => Sys2Proof.Machine.execIngressStart s
  | .deliveryReadyWithdrawn => Sys2Proof.Machine.execDeliveryReadyWithdrawn s

end Sys2Proof.Machine
end

