-- ==== Sys2Proof/Safety.lean ====
section
/-! DEFINITION. What a sound state of the chip is, in the terms the statements use: the laws of the device that the
chapters name, as decidable predicates of a state. Every step keeps each of them, and the reset state has them. -/

namespace Sys2Proof.Machine

/-! ### The Buffer Pool -/

/-- The pool's canonical form: the buffers in use in strictly rising number below 256, each with a reference (R115,
R116). -/
abbrev Forwarding.wf (f : Forwarding) : Prop :=
  f.pool.Pairwise (fun a b => a.id < b.id) ∧ ∀ b ∈ f.pool, b.id < Config.poolSize ∧ 1 ≤ b.refs

/-- The reference count of a buffer, 0 for a free one (R115). -/
def Forwarding.refsOf (f : Forwarding) (i : Nat) : Nat := (f.buffer? i).elim 0 Buffer.refs

/-- The references a frame in reception holds to buffer `i` (R11, R19). -/
def Reception.holds (i : Nat) : Reception → Nat
  | .traffic j | .abandonedTraffic j => if j = i then 1 else 0
  | _ => 0

/-- The references a frame in transmission holds to buffer `i` (R18). -/
def Transmission.holds (i : Nat) : Transmission → Nat
  | .traffic j _ => if j = i then 1 else 0
  | _ => 0

/-- The entries of an Egress Queue that refer to buffer `i`. -/
def EgressQueue.holds (q : EgressQueue) (i : Nat) : Nat := (q.entries.map Prod.snd).count i

/-- The holders of buffer `i` on one port: the arrival, the transmission and the queue entries (R116). -/
def State.portHolders (s : State) (i : Nat) (p : Port) : Nat :=
  (s.rx p).holds i + (s.tx p).holds i + (s.queue p).holds i

/-- The holders of buffer `i` (R116); the delivery in progress is the head of the Delivery Queue (R143). -/
def State.holders (s : State) (i : Nat) : Nat :=
  (Port.all.map (s.portHolders i)).sum + s.lpc.queue.count i

/-- Each reference count equals the number of holders (R116). -/
def State.referencesCounted (s : State) : Prop := ∀ i, s.fe.refsOf i = s.holders i

/-! ### Ports -/

/-- The power-on record of a port (R39, R59, R66). -/
def powerOnRecord (p : Port) : LinkRecord := .powerOn (if fibrePort p then some 127 else none)

/-- A disabled port receives nothing and keeps its power-on record; in CONFIG every port is disabled (R4, R5, R39). -/
abbrev State.dormant (s : State) : Prop :=
  ∀ p, ((s.link p).enabled = false → s.rx p = .idle ∧ s.link p = powerOnRecord p)
    ∧ (s.inService = false → (s.link p).enabled = false)

/-- In CONFIG nothing is queued, sent, delivered, known of the route or armed (R5, R37, R85, R100, R132, R146). -/
abbrev State.quiet (s : State) : Prop :=
  s.inService = false →
    (∀ p, s.tx p = .idle ∧ s.queue p = .empty) ∧ s.fe.pool = [] ∧ s.lpc.queue = [] ∧ s.lpc.delivering = none
    ∧ s.rc.entries = [] ∧ s.tu.schedule.armed = false ∧ s.af.ring = [] ∧ s.af.slots = .replicate 15 none

/-- The sizes the manual gives the queues and counts (R23, R28, R31, R84, R110, R126, R142). -/
abbrev State.withinLimits (s : State) : Prop :=
  (∀ p, (s.queue p).size ≤ Config.egressLimit) ∧ s.lpc.queue.length ≤ Config.deliveryLimit
  ∧ s.af.ring.length ≤ Config.ringLimit
  ∧ s.rc.entries.length ≤ Config.costEntries ∧ s.rc.entries.Pairwise (fun a b => a.destination < b.destination)
  ∧ s.tu.edgesSeen ≤ 65535 ∧ s.tu.missed ≤ 255 ∧ s.tu.frac < fracUnit
  ∧ -trimLimit ≤ s.tu.trim ∧ s.tu.trim ≤ trimLimit

/-- The states in which a port has been in service: usable, or faded and on its way back. -/
def LinkState.serving : LinkState → Bool
  | .clear | .degraded | .faded | .hold | .trial => true
  | _ => false

/-- What the state timer runs as in each link state (R66): hold in HOLD, trial in TRIAL, settle only while usable. -/
def timerFits (state : LinkState) (t : Option StateTimer) : Bool :=
  match t with
  | none => decide (state ≠ .hold ∧ state ≠ .trial)
  | some t =>
    match t.kind with
    | .hold => decide (state = .hold)
    | .trial => decide (state = .trial)
    | .settle => state.usable

/-- The laws of a link record: a serving port has a neighbour and a delay estimate (R68), a fade cause is known in
FADED alone and the timer fits the state (R66), P and the outlier run lie in their ranges (R38). -/
abbrev LinkRecord.lawful (r : LinkRecord) : Prop :=
  (r.state.serving = true → r.neighbour.isSome = true ∧ r.delay.isSome = true)
  ∧ (r.fadeCause.isSome = true ↔ r.state = .faded)
  ∧ timerFits r.state r.stateTimer = true
  ∧ (∀ d ∈ r.delay, d ≤ 2000000) ∧ r.outlierRun ≤ 2
  ∧ (r.lastHail.isSome = true → r.neighbour.isSome = true)
  ∧ (r.enabled = true → r.state ≠ .off)

/-- A margin in half-dB (R63). -/
abbrev inMargin (x : Int) : Prop := -128 ≤ x ∧ x ≤ 127

/-- Margins in range (R63), those of port 4 fixed at +127 (R59), and E where the link state says it is (R65, R69 to
R71): at least D in CLEAR, from F to below D + H in DEGRADED, at least R in HOLD and TRIAL. -/
abbrev LinkRecord.marginsAgree (r : LinkRecord) (g : Image) (fibre : Bool) : Prop :=
  (∀ m ∈ r.near, inMargin m) ∧ (∀ m ∈ r.far, inMargin m)
  ∧ (fibre = true → r.near = some 127 ∧ r.far = some 127)
  ∧ (r.state = .clear → r.atLeast g.degradeLevel = true)
  ∧ (r.state = .degraded →
      r.atLeast g.fadeLevel = true ∧ r.below (g.degradeLevel + g.hysteresisLevel) = true)
  ∧ (r.state = .hold ∨ r.state = .trial → r.atLeast g.restoreLevel = true)

/-- From START onward the hold duration of an enabled port lies within HOLD_BASE..HOLD_MAX (R72). -/
abbrev LinkRecord.holdWithin (r : LinkRecord) (g : Image) : Prop :=
  r.enabled = true → ∃ d ∈ r.holdDuration, g.holdBaseMs ≤ d ∧ d ≤ g.holdMaxMs

/-- A link record but for a HAIL that may have departed: only hail due and the last sent hail sequence differ, and only
where a HAIL was due (R42). -/
def LinkRecord.hailedFrom (r' r : LinkRecord) : Prop :=
  r' = { r with hailDue := r'.hailDue, lastSent := r'.lastSent } ∧ (r.hailDue = false → r' = r)

/-! ### Cost Table and queues -/

/-- The Cost Table is what a recompute would leave: each entry is the choice of R90 on the links as they stand. -/
abbrev State.costsSettled (s : State) : Prop := s.rc.recompute s.image s.lm = s.rc

/-- The table names the destinations of `t0` and keeps the table full flag and every heard cost, but for those of a port
whose neighbour is gone, which are all UNREACHABLE (R45). With `costsSettled` this fixes every field of every entry. -/
def RouteComputer.hearsAs (t t0 : RouteComputer) (gone : Option Port) : Prop :=
  t.full = t0.full
  ∧ List.Forall₂ (fun e e0 => e.destination = e0.destination
      ∧ ∀ q, e.heard.get q = if gone = some q then 16777215 else e0.heard.get q) t.entries t0.entries

/-- The state after an event of port `p` that leaves its link record as `r` and the heard costs as `rc`. The event counts
the counters listed, and reports a port that leaves the usable states by LINK_DOWN and one that enters them by LINK_UP
(R79, R80). Then, where the event calls for it, comes one recompute, and after it the queue work on a port that has left
the usable states, on the Cost Table as the recompute leaves it (R78, R129). -/
def State.afterLinkEvent (s : State) (p : Port) (r : LinkRecord) (rc : RouteComputer) (counted : List PortCounter)
    (recomputes leaves enters : Bool) : State :=
  let counts := counted.foldl (fun s c => s.count (.port p c)) { s.setLink p r with rc := rc }
  let down := if leaves then counts.raiseBit .linkDown p.toNat else counts
  let up := if enters then down.raiseBit .linkUp p.toNat else down
  let routed := if recomputes then up.recompute else up
  if leaves then routed.flush p else routed

/-- The Egress Queue of a port that is not usable holds no entries (R129). -/
abbrev State.idleQueuesEmpty (s : State) : Prop :=
  ∀ p, (s.link p).state.usable = false → s.queue p = .empty

/-! ### Seen Table -/

/-- No origin occupies two slots, none of slots 1 to 15 holds this station, and each marks its H (R98); in SERVICE slot
0 describes this station, one sequence behind the next (R99, R141). -/
abbrev State.seenLawful (s : State) : Prop :=
  (s.af.slots.toList.filterMap id).Pairwise (fun a b => a.origin ≠ b.origin)
  ∧ (∀ t ∈ s.af.slots.toList.filterMap id, t.origin ≠ s.image.number ∧ t.window.getLsbD 0 = true)
  ∧ (s.inService = true → s.af.own.origin = s.image.number ∧ s.af.own.startNumber = s.image.startNumber
      ∧ s.af.own.highest = s.lpc.nextSequence - 1)

/-! ### The service line -/

/-- The device code a service-line command carries; the release of a TIME_READ and a transfer cut short carry none. -/
def serviceDevice? : Instr → Option (BitVec 2)
  | .start d | .rejoin d | .force d _ _ | .armSchedule d _ _ _ | .disarm d | .timeStep d _ | .timeTrim d _
  | .clearCounters d _ _ | .clearRollover d _ _ _ | .ackNotices d _ | .unknownCommand d _ | .configWrite d _
  | .statusRead d _ _ | .counterRead d _ _ _ | .tableReadLink d _ _ | .tableReadCost d _ | .tableReadSeen d _
  | .tableReadRing d _ | .tableReadRace d _ _ | .tableReadConfig d _ | .tableReadUnknown d _ | .timeRead d
  | .unknownTransferType d _ => some d
  | _ => none

/-- A transfer with device code `dev` is addressed to this chip, and no TIME_READ of it is in progress (R161). -/
abbrev State.addressed (s : State) (dev : BitVec 2) : Prop := s.slc.timeRead = false ∧ dev = s.slc.deviceCode

/-- What a read drives on the data output: byte i of its data, and 0 past the end (R163). -/
def shifted (data : List Byte) (clocks : Nat) : List Byte := (List.range clocks).map (fun i => data.getD i 0)

/-- Where item `i`'s value begins in the image that TABLE_READ returns (R181). -/
def itemOffset (i : Nat) : Nat := ((List.range i).map itemWidth).sum

/-! ### The records that reads return, and those of the local port

What a record's bytes say, field by field, at the place each field has in the record (R180). -/

/-- A field that may be none, of `n` bytes after its presence byte at byte `i` (R180). -/
def optField (rec : List Byte) (i n : Nat) (x : Option Nat) : Prop :=
  (x = none → bytesAt rec i 1 = 0 ∧ bytesAt rec (i + 1) n = 0)
  ∧ ∀ v, x = some v → v < 256 ^ n → bytesAt rec i 1 = 1 ∧ bytesAt rec (i + 1) n = v

/-- A margin that may be none: presence byte, then one signed byte (R180). -/
def marginField (rec : List Byte) (i : Nat) (x : Option Int) : Prop :=
  (x = none → bytesAt rec i 1 = 0 ∧ bytesAt rec (i + 1) 1 = 0)
  ∧ ∀ m, x = some m → inMargin m → bytesAt rec i 1 = 1 ∧ (BitVec.ofNat 8 (bytesAt rec (i + 1) 1)).toInt = m

/-- A timer: running flag, and for a running one its start reading and its duration in ns; a stopped one's other bytes
are free values (R180, log 13). -/
def timerField (rec : List Byte) (i : Nat) (x : Option (Time × Nat)) : Prop :=
  (x = none → bytesAt rec i 1 = 0)
  ∧ ∀ t d, x = some (t, d) → d < 2 ^ 48 →
      bytesAt rec i 1 = 1 ∧ bytesAt rec (i + 1) 6 = t.toNat ∧ bytesAt rec (i + 7) 6 = d

/-- A link record of 78 bytes at byte `o`: the fields of R38's table, then those of R66's, a set or yes flag as 0 (log
12). -/
def linkFields (rec : List Byte) (o : Nat) (g : Image) (r : LinkRecord) : Prop :=
  let flag (b : Bool) : Nat := if b then 0 else 1
  bytesAt rec o 1 = flag r.enabled
  ∧ optField rec (o + 1) 1 (r.neighbour.map Prod.fst) ∧ optField rec (o + 3) 1 (r.neighbour.map (fun n => n.2.toNat))
  ∧ optField rec (o + 5) 1 (r.neighbourRole.map Role.toNat)
  ∧ optField rec (o + 7) 1 (r.neighbourState.map LinkState.toNat)
  ∧ bytesAt rec (o + 9) 1 = flag (decide (r.neighbourState = some .drained))
  ∧ bytesAt rec (o + 10) 1 = flag r.hailDue ∧ bytesAt rec (o + 11) 1 = r.lastSent.toNat
  ∧ (r.lastHail = none → bytesAt rec (o + 12) 14 = 0)
  ∧ (∀ l, r.lastHail = some l → bytesAt rec (o + 12) 1 = 1 ∧ bytesAt rec (o + 13) 1 = l.sequence.toNat
      ∧ bytesAt rec (o + 14) 6 = l.departure.toNat ∧ bytesAt rec (o + 20) 6 = l.receipt.toNat)
  ∧ timerField rec (o + 26) (r.silence.map (fun t => (t, g.silenceNs)))
  ∧ optField rec (o + 39) 3 r.delay
  ∧ (r.outlierRun < 256 → bytesAt rec (o + 43) 1 = r.outlierRun)
  ∧ marginField rec (o + 44) r.far ∧ bytesAt rec (o + 46) 1 = r.profile.toNat
  ∧ marginField rec (o + 47) r.near
  ∧ (r.near = none ∨ r.far = none → bytesAt rec (o + 49) 2 = 0)
  ∧ (∀ m f, r.near = some m → r.far = some f → marginField rec (o + 49) (some (min m f)))
  ∧ bytesAt rec (o + 51) 1 = r.state.toNat
  ∧ (r.fadeCause = none → bytesAt rec (o + 52) 2 = 0)
  ∧ (r.fadeCause ≠ none → bytesAt rec (o + 52) 1 = 1
      ∧ bytesAt rec (o + 53) 1 = if r.fadeCause = some .rain then 0 else 1)
  ∧ optField rec (o + 54) 2 r.holdDuration
  ∧ timerField rec (o + 57) (r.stateTimer.map (fun t => (t.start, t.duration)))
  ∧ bytesAt rec (o + 70) 6 = r.lastChange.toNat
  ∧ (r.fadeRemainder < 65536 → bytesAt rec (o + 76) 2 = r.fadeRemainder)

/-- A Cost Table entry of 26 bytes at byte `o` (R84). -/
def costFields (rec : List Byte) (o : Nat) (e : CostEntry) : Prop :=
  (e.destination < 256 → bytesAt rec o 1 = e.destination)
  ∧ (∀ q : Port, e.heard.get q < 2 ^ 24 → bytesAt rec (o + 1 + 3 * q.toNat) 3 = e.heard.get q)
  ∧ (e.own < 2 ^ 24 → bytesAt rec (o + 16) 3 = e.own)
  ∧ optField rec (o + 19) 1 (e.best.map Port.toNat) ∧ optField rec (o + 21) 1 (e.second.map Port.toNat)
  ∧ (e.secondCost < 2 ^ 24 → bytesAt rec (o + 23) 3 = e.secondCost)

/-- A Seen Table slot of 74 bytes at byte `o` that holds an origin, the window's lowest bit standing for H (R98). -/
def slotFields (rec : List Byte) (o : Nat) (t : Slot) : Prop :=
  (t.origin < 256 → bytesAt rec o 1 = t.origin) ∧ bytesAt rec (o + 1) 1 = t.startNumber.toNat
  ∧ bytesAt rec (o + 2) 2 = t.highest.toNat
  ∧ (∀ i < 512, (bytesAt rec (o + 4) 64).testBit i = t.window.getLsbD i)
  ∧ bytesAt rec (o + 68) 6 = t.lastHeard.toNat

/-- A Race Ring entry of 11 bytes at byte `o`: LOCAL as winning port is 5 (R110). -/
def ringFields (rec : List Byte) (o : Nat) (e : RingEntry) : Prop :=
  (e.origin < 256 → bytesAt rec o 1 = e.origin) ∧ bytesAt rec (o + 1) 1 = e.startNumber.toNat
  ∧ bytesAt rec (o + 2) 2 = e.sequence.toNat
  ∧ (∀ p, e.winning = .line p → bytesAt rec (o + 4) 1 = p.toNat) ∧ (e.winning = .loc → bytesAt rec (o + 4) 1 = 5)
  ∧ bytesAt rec (o + 5) 6 = e.arrival.toNat

/-- The race statistics of a port, 24 bytes at byte `o`, with its WON and LOST counters after them (R112, log 33). -/
def raceFields (rec : List Byte) (o : Nat) (r : RaceStats) (won lost : Counter) : Prop :=
  (r.sum < 2 ^ 48 → bytesAt rec o 6 = r.sum) ∧ (r.samples < 2 ^ 32 → bytesAt rec (o + 6) 4 = r.samples)
  ∧ (r.maximum < 2 ^ 48 → bytesAt rec (o + 10) 6 = r.maximum)
  ∧ bytesAt rec (o + 16) 4 = won.value.toNat ∧ bytesAt rec (o + 20) 4 = lost.value.toNat

/-- A reply to an ingress request: one byte for a refusal, ten for an acceptance (R178). -/
def replyFields (rec : List Byte) : Reply → Prop
  | .refused c => rec = [match c with
      | .notInService => 1 | .role => 2 | .length => 3 | .target => 4 | .noRoute => 5 | .noBuffer => 6]
  | .accepted n t k => rec.length = 10 ∧ bytesAt rec 0 1 = 0 ∧ bytesAt rec 1 2 = n.toNat ∧ bytesAt rec 3 6 = t.toNat
      ∧ (k < 256 → bytesAt rec 9 1 = k)

/-- The delivery record of a message that arrived by a line port (R178). -/
def deliveryFields (rec : List Byte) (d : DeliveryRecord) : Prop :=
  rec.length = 26 + d.payload.length
  ∧ (d.kind = .flood → bytesAt rec 0 1 / 64 = 1) ∧ (d.kind = .aimed → bytesAt rec 0 1 / 64 = 2)
  ∧ (bytesAt rec 0 1).testBit 5 = d.inexact ∧ bytesAt rec 0 1 / 4 % 8 = 0 ∧ bytesAt rec 0 1 % 4 = d.urgency.toNat
  ∧ (d.origin < 256 → bytesAt rec 1 1 = d.origin) ∧ (d.target < 256 → bytesAt rec 2 1 = d.target)
  ∧ bytesAt rec 3 1 = d.startNumber.toNat ∧ bytesAt rec 4 2 = d.sequence.toNat
  ∧ (d.hops < 256 → bytesAt rec 6 1 = d.hops) ∧ (∀ p, d.winning = .line p → bytesAt rec 7 1 = p.toNat)
  ∧ bytesAt rec 8 6 = d.originStamp.toNat ∧ bytesAt rec 14 6 = d.arrivalSt.toNat
  ∧ (d.routeDelay < 2 ^ 32 → bytesAt rec 20 4 = d.routeDelay) ∧ (d.length < 65536 → bytesAt rec 24 2 = d.length)
  ∧ rec.drop 26 = d.payload

/-- A capture stage, 13 bytes at byte `o` (R180); the bytes of an empty one are log 15's. -/
def stageFields (rec : List Byte) (o : Nat) (c : Option Stamp) : Prop :=
  (c = none → bytesAt rec o 13 = 0)
  ∧ ∀ x, c = some x →
      bytesAt rec o 1 = 1 ∧ bytesAt rec (o + 1) 6 = x.ic.toNat ∧ bytesAt rec (o + 7) 6 = x.st.toNat

/-- The 60 bytes of a TIME_READ: 34 latched, then the latest and the previous stage (R32, R180). -/
def timeFields (rec : List Byte) (t : TimeUnit) : Prop :=
  bytesAt rec 0 6 = t.ic.toNat ∧ bytesAt rec 6 6 = t.st.toNat
  ∧ (-200000 ≤ t.trim → t.trim ≤ 200000 → (BitVec.ofNat 32 (bytesAt rec 12 4)).toInt = t.trim)
  ∧ (bytesAt rec 16 1).testBit 0 = t.runMark ∧ (bytesAt rec 16 1).testBit 1 = t.schedule.armed
  ∧ (bytesAt rec 16 1).testBit 2 = decide (t.schedule.action = .undrain)
  ∧ optField rec 17 6 (t.period.map BitVec.toNat)
  ∧ (t.edgesSeen < 65536 → bytesAt rec 24 2 = t.edgesSeen) ∧ (t.missed < 256 → bytesAt rec 26 1 = t.missed)
  ∧ bytesAt rec 27 6 = t.schedule.target.toNat ∧ bytesAt rec 33 1 = t.schedule.mask.toNat
  ∧ stageFields rec 34 t.latest ∧ stageFields rec 47 t.previous

/-- What the station status says of one port, 7 bytes at byte `o` (R180). -/
def portFields (rec : List Byte) (o : Nat) (r : LinkRecord) (q : EgressQueue) : Prop :=
  [LinkState.off, .seeking, .clear, .degraded, .faded, .hold, .trial, .drained][bytesAt rec o 1]? = some r.state
  ∧ [none, some FadeCause.rain, some .silent][bytesAt rec (o + 1) 1]? = some r.fadeCause
  ∧ (r.neighbour = none → bytesAt rec (o + 2) 1 = 0)
  ∧ (∀ n, r.neighbour = some n → n.1 < 256 → bytesAt rec (o + 2) 1 = n.1)
  ∧ (q.size < 256 → bytesAt rec (o + 3) 1 = q.c0.length ∧ bytesAt rec (o + 4) 1 = q.c1.length
      ∧ bytesAt rec (o + 5) 1 = q.c2.length ∧ bytesAt rec (o + 6) 1 = q.c3.length)

/-- The 26 bytes of the station status before its ports (R164, R180). The role bits are pinned for the three roles (log
14). -/
def statusFields (rec : List Byte) (s : State) : Prop :=
  let g := s.image
  (bytesAt rec 0 1).testBit 0 = s.inService ∧ (g.role.toNat ≤ 2 → bytesAt rec 0 1 / 2 % 4 = g.role.toNat)
  ∧ bytesAt rec 1 1 = g.stationNumber.toNat ∧ bytesAt rec 2 1 = g.startNumber.toNat
  ∧ (s.slc.last.transfer = none → bytesAt rec 3 1 = 255 ∧ bytesAt rec 4 1 = 0)
  ∧ (∀ x, s.slc.last.transfer = some x → bytesAt rec 3 1 = x.type.toNat
      ∧ bytesAt rec 4 1 = if x.type = 0 then x.code.toNat else 0)
  ∧ [Result.accepted, .acceptedClamped, .refusedState, .refusedOperand, .unknown, .configInvalid][bytesAt rec 5 1]?
      = some s.slc.last.result
  ∧ (s.slc.last.failing = none → bytesAt rec 6 1 = 0)
  ∧ (∀ i, s.slc.last.failing = some i → i < 256 → bytesAt rec 6 1 = i)
  ∧ bytesAt rec 7 2 = 256 - s.fe.pool.length ∧ bytesAt rec 9 2 = s.lpc.nextSequence.toNat
  ∧ (bytesAt rec 11 1).testBit 0 = s.rc.full ∧ (bytesAt rec 11 1).testBit 1 = s.alarm
  ∧ (s.lpc.queue.length < 256 → bytesAt rec 12 1 = s.lpc.queue.length)
  ∧ [none, some NoticeKind.linkDown, some .linkUp, some .routeChange, some .noRoute, some .countWrap,
      some .timeEvent][bytesAt rec 13 1]? = some s.topNotice
  ∧ ∀ (i : Nat) (k : NoticeKind),
      [NoticeKind.linkDown, .linkUp, .routeChange, .noRoute, .countWrap, .timeEvent][i]? = some k →
      let x := s.snu.notices.get k
      let m := bytesAt rec (14 + 2 * i) 1
      m.testBit 0 = x.pending ∧ m.testBit 1 = x.reported ∧ m.testBit 2 = x.setSinceReport
      ∧ m.testBit 3 = g.noticeEnable.getLsbD i ∧ bytesAt rec (15 + 2 * i) 1 = x.detail.toNat

end Sys2Proof.Machine
end

