-- ==== Sys2Proof/Certificates/Slice0/Obligations.lean ====
section
/-! DEFINITION. The statements for the provers. Each docstring names the rules of spec/, or the log entry, that the
statement rests on. -/

open Sys2Proof Sys2Proof.Machine

/-! ### Steps, clocks and resets -/

/-- A step takes the command at the front of the queue and runs it with the queue's rest. -/
def Obligations.StepRunsFrontCommand : Prop :=
  ∀ (c : Instr) (rest : List Instr) (s : State), s.pending = c :: rest →
    step s = exec c { s with pending := rest }

/-- On an empty queue the interval clock ticks by 1 ns (the model's choice, log 1): station time follows it, the fade
time remainder grows by it in FADED, HOLD and TRIAL alone (R81; it waits at 1,000 for its accrual, log 17), exactly
the expiries and the match that are due join the queue (R21), and nothing else changes. While the reset pin is held
nothing moves (R20, R23). -/
def Obligations.EmptyQueueTicksTheClocks : Prop :=
  ∀ s : State, s.pending = [] →
    (s.resetHeld = true → step s = .next s)
    ∧ (s.resetHeld = false → ∃ t, step s = .next t
        ∧ t.tu = s.tu.advance 1 ∧ t.tu.ic = s.tu.ic + 1 ∧ (∀ p, let r := s.link p
            t.link p = { r with fadeRemainder := r.fadeRemainder +
              if r.state = .faded ∨ r.state = .hold ∨ r.state = .trial then 1 else 0 })
        ∧ t = { s with pending := t.pending, tu := t.tu, lm := t.lm }
        ∧ ∀ c, c ∈ t.pending ↔
            (∃ p, (c = .fadeTimeAccrual p ∧ 1000 ≤ (t.link p).fadeRemainder)
              ∨ (c = .silenceExpiry p ∧ ∃ x, (t.link p).silence = some x ∧ t.image.silenceNs ≤ (t.now - x).toNat)
              ∨ (c = .hailTimerExpiry p ∧ ∃ x, (t.link p).hailTimer = some x ∧ t.image.hailNs ≤ (t.now - x).toNat)
              ∨ (∃ x, (t.link p).stateTimer = some x ∧ x.duration ≤ (t.now - x.start).toNat
                  ∧ ((c = .holdExpiry p ∧ x.kind = .hold) ∨ (c = .trialExpiry p ∧ x.kind = .trial)
                    ∨ (c = .settleExpiry p ∧ x.kind = .settle))))
            ∨ (c = .scheduleMatch ∧ t.tu.schedule.armed = true
                ∧ (t.tu.st - t.tu.schedule.target).toNat < 2 ^ 47))

/-- Station time advances exactly: over an advance of d ns the count and the fraction together grow by d × (10^9 +
trim) units of 10^-9 ns, the fraction stays below 1 ns, so a reading lies within 1 ns of the exact value; and two
advances in a row are one advance of their sum, so that no error builds up. -/
def Obligations.StationTimeAdvancesExactly : Prop :=
  ∀ (t : TimeUnit) (d : Nat), -200000 ≤ t.trim → t.trim ≤ 200000 → t.frac < 1000000000 →
    (∃ k : Nat, (t.advance d).st = t.st + BitVec.ofNat 48 k ∧ (t.advance d).ic = t.ic + BitVec.ofNat 48 d
      ∧ (t.advance d).frac < 1000000000
      ∧ (k : Int) * 1000000000 + (t.advance d).frac = t.frac + d * (1000000000 + t.trim)
      ∧ |(k : Int) * 1000000000 - d * (1000000000 + t.trim)| < 1000000000)
    ∧ ∀ e : Nat, (t.advance d).advance e = t.advance (d + e)

/-- POWER_ON returns every block to its power-on state; the queue of commands and what the equipment shows on delivery
ready stay (log 5, log 6), and a reply or delivery being sent ends with an abort indication, which the outward record
shows (log 8). That a TIME_READ in progress is over with it is the model's choice (log 29). -/
def Obligations.PowerOnReturnsEveryBlockToReset : Prop :=
  ∀ s : State, exec .powerOn s = .next
    { State.reset with
      pending := s.pending, draws := s.draws,
      lpc := { State.reset.lpc with
        deliveryReady := s.lpc.deliveryReady,
        outwardEnd := if s.lpc.delivering.isSome = true ∨ s.lpc.replySending = true then some .abort else none } }

/-- The power-on values that the chapters state, the defaults of the configuration items (R169) among them. -/
def Obligations.ResetHoldsPowerOnValues : Prop :=
  let s := State.reset
  (∀ p, s.rx p = .idle ∧ s.tx p = .idle ∧ s.queue p = ⟨[], [], [], []⟩)
  ∧ (s.tu.ic = 0 ∧ s.tu.st = 0 ∧ s.tu.frac = 0 ∧ s.tu.trim = 0)
  ∧ (s.tu.latest = none ∧ s.tu.previous = none ∧ s.tu.period = none ∧ s.tu.edgesSeen = 0 ∧ s.tu.missed = 0
      ∧ s.tu.runMark = false ∧ s.tu.held = none)
  ∧ s.tu.schedule = ⟨false, 0, .drain, 0⟩
  ∧ (∀ p, (s.link p).enabled = false ∧ (s.link p).neighbour = none ∧ (s.link p).neighbourRole = none
      ∧ (s.link p).neighbourState = none ∧ (s.link p).hailDue = false ∧ (s.link p).lastSent = 255
      ∧ (s.link p).lastHail = none ∧ (s.link p).silence = none ∧ (s.link p).delay = none ∧ (s.link p).outlierRun = 0
      ∧ (s.link p).far = (if p = .p4 then some 127 else none)
      ∧ (s.link p).near = (if p = .p4 then some 127 else none) ∧ (s.link p).profile = 0
      ∧ (s.link p).state = .off ∧ (s.link p).fadeCause = none ∧ (s.link p).holdDuration = none
      ∧ (s.link p).stateTimer = none ∧ (s.link p).lastChange = 0 ∧ (s.link p).fadeRemainder = 0)
  ∧ (s.rc.entries = [] ∧ s.rc.full = false)
  ∧ (s.af.own = ⟨0, 0, 65535, 0, 0⟩ ∧ (∀ i : Fin 15, s.af.slots.get i = none) ∧ s.af.ring = []
      ∧ ∀ p, s.af.race.get p = ⟨0, 0, 0⟩)
  ∧ s.fe.freeBuffers = 256
  ∧ (s.lpc.nextSequence = 0 ∧ s.lpc.queue = [] ∧ s.lpc.reply = none ∧ s.lpc.delivering = none)
  ∧ (s.slc.station = .config ∧ s.slc.last = ⟨none, .accepted, none⟩)
  ∧ (let g := s.image
     g.stationNumber = 0 ∧ g.roleOf = .relay ∧ g.role.toNat = 2 ∧ g.startNumber = 0 ∧ g.crossFeed = 0
     ∧ g.portEnable = 0x0F ∧ g.floodMask = 0x0F ∧ g.fibreFlood = 2 ∧ g.fibreRate = 1000
     ∧ (∀ i, (g.profile i).threshold.toInt = -240 ∧ (g.profile i).rate = 0)
     ∧ g.hailInterval = 500 ∧ g.lossCount = 4 ∧ g.delayJump = 2000 ∧ g.marginShift = 2 ∧ g.fade.toInt = 6
     ∧ g.hysteresis = 8 ∧ g.degrade.toInt = 24 ∧ g.holdBase = 200 ∧ g.holdMax = 12800 ∧ g.trialWindow = 500
     ∧ g.refLen = 128 ∧ g.degradePenalty = 20000 ∧ g.pairClass = 4 ∧ g.pairWindow = 50000 ∧ g.ageLimit = 2000
     ∧ g.initBudget = 10 ∧ g.originIdle = 2000 ∧ g.noticeEnable = 0x3F ∧ g.noticeOrder = 0)
  ∧ (∀ c, s.snu.counter c = ⟨0, false, false⟩) ∧ (∀ k, s.snu.notices.get k = ⟨false, false, false, 0⟩)
  ∧ s.alarm = false

/-- The release of power-on reset starts the clocks and samples the device code (R20, R161); a release while the pin is
not asserted has no effect (the model's choice, log 4). -/
def Obligations.ResetReleaseSamplesDeviceCode : Prop :=
  ∀ (dc : BitVec 2) (s : State),
    (s.resetHeld = true → exec (.powerOnResetRelease dc) s
      = .next { s with resetHeld := false, slc := { s.slc with deviceCode := dc } })
    ∧ (s.resetHeld = false → exec (.powerOnResetRelease dc) s = .next s)

/-! ### Arrivals -/

/-- ARRIVAL_START: in CONFIG or on a disabled port the frame is discarded whole (R4, R5); else the class decides (R11,
R12). A granted buffer was free, holds one reference and the stamp, and no other buffer changes (R27, R115, R116). A
start while a frame is in reception has no effect (the model's choice, log 4). -/
def Obligations.ArrivalStartClaimsBufferOrStore : Prop :=
  ∀ (p : Port) (cls : Byte) (s : State),
    (s.inService = false ∨ (s.link p).enabled = false ∨ s.rx p ≠ .idle → exec (.arrivalStart p cls) s = .next s)
    ∧ (s.inService = true → (s.link p).enabled = true → s.rx p = .idle →
        (cls = 2 → exec (.arrivalStart p cls) s = .next (s.setRx p (.hail s.now)))
        ∧ (cls ≠ 1 → cls ≠ 2 → exec (.arrivalStart p cls) s = .next (s.setRx p .unknownClass))
        ∧ (cls = 1 → 256 ≤ s.fe.pool.length →
            exec (.arrivalStart p cls) s = .next ((s.count (.port p .rxNoBuffer)).setRx p .unstored))
        ∧ (cls = 1 → s.fe.pool.length < 256 → s.fe.wf →
            ∃ i fe b, exec (.arrivalStart p cls) s = .next ({ s with fe := fe }.setRx p (.traffic i))
              ∧ s.fe.buffer? i = none ∧ fe.buffer? i = some b ∧ fe.queues = s.fe.queues ∧ fe.wf
              ∧ fe.freeBuffers + 1 = s.fe.freeBuffers
              ∧ b.stamp = ⟨s.tu.ic, s.tu.st⟩ ∧ b.arrival = .line p ∧ b.refs = 1
              ∧ (∀ q, b.used.get q = decide (q = p)) ∧ ∀ j, j ≠ i → fe.buffer? j = s.fe.buffer? j))

/-- The tests of R13 on a traffic frame: a frame is good exactly when all of them hold, with each field of its header
read in full width (R174). And the tests of R16 on a HAIL: it is valid exactly when all of them hold (R175, R176). -/
def Obligations.GoodTrafficFramePassesEightTests : Prop :=
  (∀ (f : Frame) (h : RouteHeader) (payload : List Byte),
    checkTraffic f = some (h, payload) ↔
      f.aborted = false ∧ crc32 f.body = f.check
      ∧ RouteHeader.read f.body = some h ∧ payload = f.body.drop 24
      ∧ (8 ≤ h.length ∧ h.length ≤ 1024 ∧ payload.length = h.length)
      ∧ (1 ≤ h.origin ∧ h.origin ≤ 63)
      ∧ ((h.kind = .flood → h.target = 0) ∧ (h.kind = .aimed → 1 ≤ h.target ∧ h.target ≤ 63))
      ∧ 1 ≤ h.budget ∧ h.hops + h.budget ≤ 31)
  ∧ (∀ (body : List Byte) (h : RouteHeader),
      let num (i n : Nat) : Nat := ofBytes ((body.drop i).take n)
      RouteHeader.read body = some h ↔
        24 ≤ body.length
        ∧ (num 0 1 / 64 = 1 ∧ h.kind = .flood ∨ num 0 1 / 64 = 2 ∧ h.kind = .aimed)
        ∧ (h.inexact = true ↔ num 0 1 / 32 % 2 = 1) ∧ h.urgency.toNat = num 0 1 % 4
        ∧ h.origin = num 1 1 ∧ h.target = num 2 1 ∧ h.startNumber.toNat = num 3 1 ∧ h.sequence.toNat = num 4 2
        ∧ h.budget = num 6 1 ∧ h.hops = num 7 1 ∧ h.originStamp.toNat = num 10 6 ∧ h.routeDelay = num 16 4
        ∧ h.length = num 20 2)
  ∧ ∀ (f : Frame) (h : Hail),
      let num (i n : Nat) : Nat := ofBytes ((f.body.drop i).take n)
      let start := if 128 ≤ num 3 1 then 25 else 12
      checkHail f = some h ↔
        f.aborted = false ∧ crc32 f.body = f.check ∧ f.body.length = start + 4 * num 5 1
        ∧ (h.sender = num 0 1 ∧ 1 ≤ h.sender ∧ h.sender ≤ 63)
        ∧ h.senderPort.toNat = num 1 1 % 8 ∧ h.senderRole.toNat = num 1 1 / 16 % 4
        ∧ h.senderState.toNat = num 3 1 % 8 ∧ h.sequence.toNat = num 2 1 ∧ h.departure.toNat = num 6 6
        ∧ h.farMargin = (BitVec.ofNat 8 (num 4 1)).toInt
        ∧ (num 3 1 < 128 → h.echo = none)
        ∧ (128 ≤ num 3 1 → ∃ e, h.echo = some e ∧ e.sequence.toNat = num 12 1 ∧ e.departure.toNat = num 13 6
            ∧ e.receipt.toNat = num 19 6)
        ∧ h.vector = (List.range (num 5 1)).map (fun i => (num (start + 4 * i) 1, num (start + 4 * i + 1) 3))
        ∧ h.vector.length ≤ 16 ∧ h.vector.Pairwise (fun x y => x.1 < y.1)
        ∧ ∀ x ∈ h.vector, 1 ≤ x.1 ∧ x.1 ≤ 63

/-- The end of a frame that is not handed inward: a failed check counts RX_CHECK_ERR and frees the store or the buffer's
reference (R13, R16), an unknown class counts it too (R11), a refused or abandoned frame counts nothing (R12, R19). A
frame whose start fell in CONFIG or on a disabled port is discarded whole and counts nothing (R4, R5); that an end with
no start at all does nothing is the model's choice (log 4). -/
def Obligations.UnacceptedFrameLeavesOnlyItsCount : Prop :=
  ∀ (p : Port) (f : Frame) (s : State),
    (∀ i, s.rx p = .traffic i → checkTraffic f = none →
      exec (.trafficArrivalCompletion p f) s
        = .next (((s.setRx p .idle).count (.port p .rxCheckErr)).release i))
    ∧ (s.rx p = .unknownClass → exec (.trafficArrivalCompletion p f) s
        = .next ((s.setRx p .idle).count (.port p .rxCheckErr)))
    ∧ (s.rx p = .unstored ∨ s.rx p = .abandonedUnknown → exec (.trafficArrivalCompletion p f) s
        = .next (s.setRx p .idle))
    ∧ (∀ i, s.rx p = .abandonedTraffic i → exec (.trafficArrivalCompletion p f) s
        = .next ((s.setRx p .idle).release i))
    ∧ (∀ a, s.rx p = .hail a → checkHail f = none → exec (.hailArrivalCompletion p f) s
        = .next ((s.setRx p .idle).count (.port p .rxCheckErr)))
    ∧ (s.rx p = .abandonedHail → exec (.hailArrivalCompletion p f) s = .next (s.setRx p .idle))
    ∧ (s.rx p = .idle → exec (.trafficArrivalCompletion p f) s = .next s
        ∧ exec (.hailArrivalCompletion p f) s = .next s
        ∧ (s.inService = false ∨ (s.link p).enabled = false → ∀ cls, ∃ t, exec (.arrivalStart p cls) s = .next t
            ∧ exec (.trafficArrivalCompletion p f) t = .next s ∧ exec (.hailArrivalCompletion p f) t = .next s))

/-- A good traffic frame in a pool in its form (which every step keeps): counted RX_GOOD, the hop step of R14, the hop
delay of R118, the verdict with its counter (R101, R109), and for every verdict but FIRST the arrival's reference
released with no copy made (R15); a FIRST makes the copies before that release. A FIRST enters the Race Ring, and a
DUP adds its lateness against the newest matching entry to the port's race statistics (R110 to R112). Each verdict has
its own counter: WON, LOST and STALE of the arrival port, and the station's ECHO and NOSLOT (R109). -/
def Obligations.GoodFrameIsSteppedFilteredAndReleased : Prop :=
  (∀ (p : Port) (f : Frame) (s : State) (i : Nat) (b : Buffer) (h : RouteHeader) (payload : List Byte),
    s.fe.wf → s.rx p = .traffic i → s.fe.buffer? i = some b → checkTraffic f = some (h, payload) →
      ∃ (b' : Buffer) (s' : State),
        b' = { b with header := b'.header, payload := payload }
        ∧ b'.header = { h with budget := h.budget - 1, hops := h.hops + 1,
                               routeDelay := b'.header.routeDelay, inexact := b'.header.inexact }
        ∧ ((s.link p).delay = none → b'.header.routeDelay = h.routeDelay ∧ b'.header.inexact = true)
        ∧ (∀ d, (s.link p).delay = some d → h.routeDelay + d ≤ 4294967295 →
            b'.header.routeDelay = h.routeDelay + d ∧ b'.header.inexact = h.inexact)
        ∧ (∀ d, (s.link p).delay = some d → 4294967295 < h.routeDelay + d →
            b'.header.routeDelay = 4294967295 ∧ b'.header.inexact = true)
        ∧ s' = { s.setRx p .idle with
                  fe := s.fe.update i (fun _ => b')
                  af := s.af.after (judge s.image.number s.image.idleNs s.now s.af.slots h.origin h.startNumber
                    h.sequence) p b.stamp.ic h.origin h.startNumber h.sequence
                  snu := s'.snu }
        ∧ s'.snu = (let j := judge s.image.number s.image.idleNs s.now s.af.slots h.origin h.startNumber h.sequence
                    let n := (s.snu.count (.port p .rxGood)).count (j.verdict.counter p)
                    if j.restart then n.count (.station .originRestart) else n)
        ∧ exec (.trafficArrivalCompletion p f) s
          = .next ((if (judge s.image.number s.image.idleNs s.now s.af.slots h.origin h.startNumber
              h.sequence).verdict = .first then (s'.makeCopies b').1 else s').release i))
  ∧ (∀ (v : ArrivalFilter) (j : Judgement) (p : Port) (a : Time) (o : Nat) (n : Byte) (q : BitVec 16),
      let t := v.after j p a o n q
      let same (e : RingEntry) : Prop := e.origin = o ∧ e.startNumber = n ∧ e.sequence = q
      t = { v with slots := j.slots, ring := t.ring, race := t.race }
      ∧ (j.verdict = .first → t.ring = addToRing v.ring ⟨o, n, q, .line p, a⟩)
      ∧ (j.verdict ≠ .first → t.ring = v.ring) ∧ (j.verdict ≠ .dup → t.race = v.race)
      ∧ (j.verdict = .dup → (∀ e ∈ v.ring, ¬ same e) → t.race = v.race)
      ∧ ∀ (l1 : List RingEntry) (e : RingEntry) (l2 : List RingEntry), j.verdict = .dup → v.ring = l1 ++ e :: l2 →
          same e → (∀ x ∈ l2, ¬ same x) →
          let late := if (a - e.arrival).toNat < 2 ^ 47 then (a - e.arrival).toNat else 0
          let r := v.race.get p
          t.race.get p = ⟨min (2 ^ 48 - 1) (r.sum + late), min (2 ^ 32 - 1) (r.samples + 1), max r.maximum late⟩
          ∧ ∀ x, x ≠ p → t.race.get x = v.race.get x)
  ∧ (∀ p : Port, Verdict.first.counter p = .port p .won ∧ Verdict.dup.counter p = .port p .lost
      ∧ Verdict.stale.counter p = .port p .stale ∧ Verdict.echo.counter p = .station .echo
      ∧ Verdict.noSlot.counter p = .station .noSlot)
  ∧ ∀ (ring : List RingEntry) (e : RingEntry),
      (ring.length < 64 → addToRing ring e = ring ++ [e])
      ∧ ∀ x l, ring = x :: l → ring.length = 64 → addToRing ring e = l ++ [e]

/-! ### The Arrival Filter -/

/-- The sequence test: diff = (s − H) mod 65,536 forward, back = 65,536 − diff behind; FIRST, DUP and STALE with the
window, H and last-heard that follow. -/
def Obligations.SequenceTestJudgesAgainstWindow : Prop :=
  ∀ (t : Slot) (q : BitVec 16) (now : Time),
    let diff := (q - t.highest).toNat
    let back := 65536 - diff
    (diff = 0 → t.judge q now = (.dup, { t with lastHeard := now }))
    ∧ (1 ≤ diff → diff ≤ 32767 →
        (t.judge q now).1 = .first
        ∧ (t.judge q now).2 = { t with highest := q, window := (t.judge q now).2.window, lastHeard := now }
        ∧ ∀ i < 512, (t.judge q now).2.window.getLsbD i
            = (decide (i = 0) || (decide (diff ≤ i) && t.window.getLsbD (i - diff))))
    ∧ (32768 ≤ diff → back ≤ 511 → t.window.getLsbD back = true →
        t.judge q now = (.dup, { t with lastHeard := now }))
    ∧ (32768 ≤ diff → back ≤ 511 → t.window.getLsbD back = false →
        (t.judge q now).1 = .first
        ∧ (t.judge q now).2 = { t with window := (t.judge q now).2.window, lastHeard := now }
        ∧ ∀ i < 512, (t.judge q now).2.window.getLsbD i = (decide (i = back) || t.window.getLsbD i))
    ∧ (32768 ≤ diff → 512 ≤ back → t.judge q now = (.stale, t))

/-- The start-number test: a later start re-initialises the slot and restarts the origin, an earlier one is STALE. -/
def Obligations.StartNumberTestComparesOnTheCircle : Prop :=
  ∀ (t : Slot) (n : Byte) (q : BitVec 16) (now : Time),
    let d := (n - t.startNumber).toNat
    (d = 0 → t.test n q now = ((t.judge q now).1, (t.judge q now).2, false))
    ∧ (1 ≤ d → d ≤ 127 → t.test n q now = (.first, ⟨t.origin, n, q, 1, now⟩, true))
    ∧ (128 ≤ d → t.test n q now = (.stale, t, false))

/-- The slot that holds the origin is put to the start-number test and written back (R102, R104). An origin that no slot
holds gets the lowest free slot; with none free, the longest idle slot of lowest index if it has been idle for
ORIGIN_IDLE, else NOSLOT, idle time being (IC − last-heard) mod 2^48; this station's own messages are ECHO (R101 to
R103). -/
def Obligations.NewOriginTakesFreeOrIdleSlot : Prop :=
  ∀ (own idle : Nat) (now : Time) (slots : Vector (Option Slot) 15) (o : Nat) (n : Byte) (q : BitVec 16),
    (o = own → judge own idle now slots o n q = ⟨.echo, slots, false⟩)
    ∧ (∀ t : Slot, idleTime now (some t) = (now - t.lastHeard).toNat)
    ∧ (∀ (i : Fin 15) (t : Slot), o ≠ own → slots.get i = some t → t.origin = o →
        (∀ k : Fin 15, k < i → ∀ x, slots.get k = some x → x.origin ≠ o) →
        judge own idle now slots o n q
          = ⟨(t.test n q now).1, slots.set i.val (some (t.test n q now).2.1), (t.test n q now).2.2⟩)
    ∧ (o ≠ own → (∀ t ∈ slots.toList.filterMap id, t.origin ≠ o) →
        (∀ i : Fin 15, slots.get i = none → (∀ k : Fin 15, k < i → slots.get k ≠ none) →
          judge own idle now slots o n q = ⟨.first, slots.set i.val (some ⟨o, n, q, 1, now⟩), false⟩)
        ∧ ((∀ k : Fin 15, slots.get k ≠ none) → ∀ i : Fin 15,
            (∀ k : Fin 15, idleTime now (slots.get k) ≤ idleTime now (slots.get i)) →
            (∀ k : Fin 15, k < i → idleTime now (slots.get k) < idleTime now (slots.get i)) →
            (idle ≤ idleTime now (slots.get i) →
              judge own idle now slots o n q = ⟨.first, slots.set i.val (some ⟨o, n, q, 1, now⟩), false⟩)
            ∧ (idleTime now (slots.get i) < idle → judge own idle now slots o n q = ⟨.noSlot, slots, false⟩)))

/-! ### Copies, queues and departures -/

/-- The copy set of a FLOOD: usable candidates of FLOOD_MASK, and the fibre as FIBRE_FLOOD lays down, but for the
arrival port and every port whose neighbour is the origin; in ascending order. -/
def Obligations.FloodCopySetHoldsTheCandidates : Prop :=
  ∀ (s : State) (a : Origin) (o : Nat),
    (s.floodPorts a o).Pairwise (fun x y => x.toNat < y.toNat)
    ∧ ∀ p, p ∈ s.floodPorts a o ↔
        ((s.link p).state = .clear ∨ (s.link p).state = .degraded)
        ∧ ((p ≠ .p4 ∧ s.image.floodMask.getLsbD p.toNat = true)
          ∨ (p = .p4 ∧ s.image.fibreFlood = 1)
          ∨ (p = .p4 ∧ s.image.fibreFlood = 2 ∧ ∀ q, q ≠ .p4 → (s.link q).state.usable = false))
        ∧ a ≠ .line p ∧ ∀ n, (s.link p).neighbour = some n → n.1 ≠ o

/-- The choice for an AIMED message: steps 1 to 4 of R122, and the pair copy of R123. -/
def Obligations.AimedChoiceFollowsTheCostTable : Prop :=
  ∀ (s : State) (a : Origin) (t : Nat) (u : Urgency),
    (t = s.image.number →
      s.aimedChoice a t u = if s.image.roleOf = .relay then .noRoute else .localPort)
    ∧ (t ≠ s.image.number → s.rc.entry? t = none → s.aimedChoice a t u = .noRoute)
    ∧ (∀ e, t ≠ s.image.number → s.rc.entry? t = some e →
        (e.best = none → s.aimedChoice a t u = .noRoute)
        ∧ (∀ b, e.best = some b → a = .line b → e.second = none → s.aimedChoice a t u = .noRoute)
        ∧ (∀ b c, e.best = some b → (a ≠ .line b ∧ c = b ∨ a = .line b ∧ e.second = some c) →
            ∃ pair, s.aimedChoice a t u = .egress c pair
              ∧ ∀ x, pair = some x ↔ e.second = some x ∧ s.image.pairClass.toNat ≤ u.toNat ∧ a ≠ .line x ∧ x ≠ c
                  ∧ e.secondCost ≤ e.own + s.image.pairWindow.toNat))

/-- Placing a copy: it joins the tail of its class with a reference and the port among the used ports, and an idle
port selects before the next copy is placed (log 19); a full queue drops it, counted QUEUE_DROP, with no reference and
no used port. With no hop left no copy is made and SPENT is counted on the arrival port. The copies of a message are
placed port after port in the order of its copy set, those that found room being counted, then the local copy, which
joins the Delivery Queue with its own reference or is dropped from a full one, counted DELIVERY_DROP (R121 to R125,
R142). -/
def Obligations.CopyJoinsItsClassOrIsDropped : Prop :=
  (∀ (s : State) (i : Nat) (u : Urgency) (p : Port),
    ((s.queue p).size < 64 →
      s.place i u p
        = ((({ s with fe := s.fe.update i (fun b => { b with refs := b.refs + 1, used := b.used.set p true }) }).setQueue
            p ((s.queue p).setClass u ((s.queue p).klass u ++ [i]))).select p, true))
    ∧ (64 ≤ (s.queue p).size → s.place i u p = (s.count (.port p .queueDrop), false)))
  ∧ (∀ (s : State) (b : Buffer) (ports : List Port),
    (b.header.budget = 0 → ∀ p, b.arrival = .line p → s.egressCopies b ports = (s.count (.port p .spent), 0))
    ∧ (1 ≤ b.header.budget → s.egressCopies b ports = placeCopies b.id b.header.urgency ports s))
  ∧ (∀ (s : State) (i : Nat) (u : Urgency) (ports : List Port),
    (placeCopies i u ports s).1 = ports.foldl (fun t p => (t.place i u p).1) s
    ∧ (ports.Nodup →
        (placeCopies i u ports s).2 = (ports.filter (fun p => decide ((s.queue p).size < 64))).length))
  ∧ (∀ (s : State) (i : Nat),
    (s.lpc.queue.length < 64 → s.placeLocal i = State.tryDeliver
      { s with fe := s.fe.update i (fun b => { b with refs := b.refs + 1 }),
               lpc := { s.lpc with queue := s.lpc.queue ++ [i] } })
    ∧ (64 ≤ s.lpc.queue.length → s.placeLocal i = s.count (.station .deliveryDrop)))
  ∧ ∀ (s : State) (b : Buffer),
    let h := b.header
    let g := s.image
    let owed := b.arrival ≠ .loc ∧ (g.roleOf = .floor ∨ g.roleOf = .source ∧ g.crossFeed ≠ 0 ∧ h.origin ≠ g.number)
    let copies := s.egressCopies b (s.floodPorts b.arrival h.origin)
    let choice := s.aimedChoice b.arrival h.target h.urgency
    (h.kind = .flood → owed → s.makeCopies b = (copies.1.placeLocal b.id, copies.2))
    ∧ (h.kind = .flood → ¬ owed → s.makeCopies b = copies)
    ∧ (h.kind = .aimed → choice = .localPort → s.makeCopies b = (s.placeLocal b.id, 0))
    ∧ (h.kind = .aimed → choice = .noRoute → s.makeCopies b = (s.count (.station .noRouteDrop), 0))
    ∧ (∀ c, h.kind = .aimed → choice = .egress c none → s.makeCopies b = s.egressCopies b [c])
    ∧ ∀ c x, h.kind = .aimed → choice = .egress c (some x) →
        s.makeCopies b = s.egressCopies b (if x.toNat < c.toNat then [x, c] else [c, x])

/-- Selection on an idle port: a due HAIL departs; else the head of the highest non-empty class, which departs with the
buffer's route delay plus its residence, or, older than AGE_LIMIT, is dropped, counted and followed by a new selection;
a port with a frame in transmission, or nothing waiting, does nothing. -/
def Obligations.SelectionServesHailThenHighestClass : Prop :=
  ∀ (s : State) (p : Port),
    (s.tx p ≠ .idle → s.select p = s)
    ∧ (s.tx p = .idle →
        ((s.link p).hailDue = true →
          s.select p = (s.setTx p (.hail (s.buildHail p ((s.link p).lastSent + 1)))).setLink p
            { s.link p with hailDue := false, lastSent := (s.link p).lastSent + 1 })
        ∧ ((s.link p).hailDue = false → s.queue p = .empty → s.select p = s)
        ∧ (∀ u i l b, (s.link p).hailDue = false → (s.queue p).klass u = i :: l →
            (∀ w, u.toNat < w.toNat → (s.queue p).klass w = []) → s.fe.buffer? i = some b →
            ((s.now - b.stamp.ic).toNat ≤ s.image.ageNs →
              s.select p = (s.setQueue p ((s.queue p).setClass u l)).setTx p
                (.traffic b.id (b.header.addDelay (s.now - b.stamp.ic).toNat)))
            ∧ (s.image.ageNs < (s.now - b.stamp.ic).toNat →
              s.select p = ((((s.setQueue p ((s.queue p).setClass u l)).release i).count
                (.port p .ageDrop)).select p))))

/-- A route delay grows by a residence or a hop, saturating at 4,294,967,295 with INEXACT set; it never falls and
INEXACT, once set, stays. -/
def Obligations.RouteDelaySaturatesAndNeverFalls : Prop :=
  ∀ (h : RouteHeader) (d : Nat),
    (h.routeDelay + d ≤ 4294967295 → h.addDelay d = { h with routeDelay := h.routeDelay + d })
    ∧ (4294967295 < h.routeDelay + d → h.addDelay d = { h with routeDelay := 4294967295, inexact := true })
    ∧ (h.routeDelay ≤ 4294967295 → h.routeDelay ≤ (h.addDelay d).routeDelay ∧ (h.addDelay d).routeDelay ≤ 4294967295)
    ∧ (h.inexact = true → (h.addDelay d).inexact = true)

/-- DEPARTURE_COMPLETION: a traffic copy is counted TX_TRAFFIC and its reference released, a HAIL is not counted, and
the port selects again; on a port with no frame in transmission nothing happens (the model's choice, log 4). -/
def Obligations.DepartureCompletionCountsAndSelectsAgain : Prop :=
  ∀ (p : Port) (s : State),
    (s.tx p = .idle → exec (.departureCompletion p) s = .next s)
    ∧ (∀ h, s.tx p = .hail h → exec (.departureCompletion p) s = .next ((s.setTx p .idle).select p))
    ∧ (∀ i h, s.tx p = .traffic i h → exec (.departureCompletion p) s
        = .next ((((s.count (.port p .txTraffic)).release i).setTx p .idle).select p))
    ∧ (∀ i h, s.tx p = .traffic i h → (s.link p).hailDue = false → s.queue p = .empty →
        exec (.departureCompletion p) s = .next (((s.count (.port p .txTraffic)).release i).setTx p .idle))

/-- A port that has left the usable states: its queue is emptied, and its entries are taken in queue order, class 3
first (R129). A FLOOD is flushed. An AIMED entry moves to the first of best and second port that its buffer has not
used, or is dropped where that queue is full; it is flushed exactly where its target has no entry, or where best and
second port are each none or used (R130). A port that an entry moves to selects at once (log 19). -/
def Obligations.FlushedPortReaimsItsEntries : Prop :=
  (∀ (s : State) (p : Port),
    let q := s.queue p
    s.flush p = List.foldl (State.flushEntry p) (s.setQueue p ⟨[], [], [], []⟩)
      (q.c3.map (fun i => (.u3, i)) ++ q.c2.map (fun i => (.u2, i)) ++ q.c1.map (fun i => (.u1, i))
        ++ q.c0.map (fun i => (.u0, i))))
  ∧ ∀ (s : State) (p : Port) (u : Urgency) (i : Nat) (b : Buffer), s.fe.buffer? i = some b →
    (b.header.kind = .flood → State.flushEntry p s (u, i) = (s.release i).count (.port p .flushed))
    ∧ (b.header.kind = .aimed → s.rc.entry? b.header.target = none →
        State.flushEntry p s (u, i) = (s.release i).count (.port p .flushed))
    ∧ ∀ e, b.header.kind = .aimed → s.rc.entry? b.header.target = some e →
        ((∀ x, e.best = some x ∨ e.second = some x → b.used.get x = true) →
          State.flushEntry p s (u, i) = (s.release i).count (.port p .flushed))
        ∧ ∀ r, b.used.get r = false →
            (e.best = some r ∨ e.second = some r ∧ ∀ x, e.best = some x → b.used.get x = true) →
            ((s.queue r).size < 64 →
              State.flushEntry p s (u, i)
                = ((({ s with fe := s.fe.update i (fun b => { b with used := b.used.set r true }) }.setQueue r
                    ((s.queue r).setClass u ((s.queue r).klass u ++ [i]))).count (.port p .reaimed)).select r))
            ∧ (64 ≤ (s.queue r).size →
              State.flushEntry p s (u, i) = (s.release i).count (.port r .queueDrop))

/-! ### HAILs -/

/-- A HAIL of this station itself: counted HAIL_RX, the neighbour forgotten with the port's heard costs, and the port
sent to SEEKING unless it is DRAINED; the Cost Table keeps its entries and the other ports' heard costs, recomputed; a
port leaving service raises LINK_DOWN, counts no fade and empties its queue by the flush of R129 and R130, which comes
after the recompute (R78). -/
def Obligations.SelfHailForgetsTheNeighbour : Prop :=
  ∀ (p : Port) (f : Frame) (s : State) (a : Time) (h : Hail),
    s.rx p = .hail a → checkHail f = some h → h.sender = s.image.number →
      ∃ t, exec (.hailArrivalCompletion p f) s = .next t
        ∧ t = { s with li := t.li, lm := t.lm, rc := t.rc, fe := t.fe, snu := t.snu }
        ∧ t.rx p = .idle ∧ (∀ q, q ≠ p → t.rx q = s.rx q ∧ (t.link q).hailedFrom (s.link q))
        ∧ (let r := s.link p
           let r' : LinkRecord :=
             { r with neighbour := none, neighbourRole := none, neighbourState := none, lastHail := none,
                      delay := none, outlierRun := 0, silence := none, far := if p = .p4 then r.far else none }
           t.link p = if r.state = .drained ∨ r.state = .seeking then r'
             else { r' with state := .seeking, fadeCause := none, stateTimer := none, lastChange := s.now })
        ∧ (∀ e ∈ t.rc.entries, e.heard.get p = 16777215) ∧ t.rc.hearsAs s.rc (some p) ∧ t.costsSettled
        ∧ t = (s.setRx p .idle).afterLinkEvent p (t.link p) (s.rc.forget p) [.hailRx] true (s.link p).state.usable false
        ∧ t.snu.counter (.port p .hailRx) = (s.snu.counter (.port p .hailRx)).bump
        ∧ t.snu.counter (.port p .fadeCount) = s.snu.counter (.port p .fadeCount)
        ∧ (if (s.link p).state = .clear ∨ (s.link p).state = .degraded then
             t.snu.notices.linkDown = s.snu.notices.linkDown.raiseBit p.toNat ∧ t.queue p = .empty
           else t.snu.notices.linkDown = s.snu.notices.linkDown ∧ t.queue p = s.queue p)

/-- A HAIL of another station: its sender is recorded, a change of neighbour forgetting the old one first; the record
takes the HAIL's fields and its echo's sample, the link state machine is evaluated on the result, and the cost vector
replaces the port's heard costs in one recompute. Each destination named that has no entry, but for this station, gets
one while the table holds fewer than 16, and one passed over sets the table full flag (R86). The changes of state are
reported by LINK_DOWN, LINK_UP and FADE_COUNT (R79, R80); a port that has left the usable states, to return or not,
flushes its queue after the recompute (R78, R129, R130). -/
def Obligations.NeighbourHailUpdatesRecordAndCosts : Prop :=
  ∀ (p : Port) (f : Frame) (s : State) (a : Time) (h : Hail),
    s.rx p = .hail a → checkHail f = some h → h.sender ≠ s.image.number →
      ∃ (t : State) (r1 : LinkRecord), exec (.hailArrivalCompletion p f) s = .next t
        ∧ t = { s with li := t.li, lm := t.lm, rc := t.rc, fe := t.fe, snu := t.snu }
        ∧ t.rx p = .idle ∧ (∀ q, q ≠ p → t.rx q = s.rx q ∧ (t.link q).hailedFrom (s.link q))
        ∧ (let r := s.link p
           let same := r.neighbour = none ∨ r.neighbour = some (h.sender, h.senderPort)
           let r0 := if same then r else { r with delay := none, outlierRun := 0 }
           r1 = { r with neighbour := some (h.sender, h.senderPort), neighbourRole := some h.senderRole,
                         neighbourState := some h.senderState, silence := some s.now,
                         far := if p = .p4 then r.far else some h.farMargin,
                         lastHail := some ⟨h.sequence, h.departure, a⟩,
                         delay := (r0.sample s.image a h).1.delay,
                         outlierRun := (r0.sample s.image a h).1.outlierRun,
                         state := r1.state, fadeCause := r1.fadeCause, stateTimer := r1.stateTimer,
                         lastChange := r1.lastChange }
           ∧ (same ∨ r.state = .drained ∨ r.state = .seeking → r1.state = r.state ∧ r1.fadeCause = r.fadeCause
               ∧ r1.stateTimer = r.stateTimer ∧ r1.lastChange = r.lastChange)
           ∧ (¬ same → r.state ≠ .drained → r.state ≠ .seeking → r1.state = .seeking ∧ r1.fadeCause = none
               ∧ r1.stateTimer = none ∧ r1.lastChange = s.now)
           ∧ t.snu.counter (.port p .delayOutlier) = (if (r0.sample s.image a h).2 = true
               then (s.snu.counter (.port p .delayOutlier)).bump else s.snu.counter (.port p .delayOutlier)))
        ∧ (t.link p).hailedFrom (r1.evaluate s.image s.now false)
        ∧ (∀ e ∈ t.rc.entries, (∀ c, (e.destination, c) ∈ h.vector → e.heard.get p = c)
            ∧ ((∀ c, (e.destination, c) ∉ h.vector) → e.heard.get p = 16777215))
        ∧ t.costsSettled
        ∧ t.snu.counter (.port p .hailRx) = (s.snu.counter (.port p .hailRx)).bump
        ∧ (let held := s.rc.entries.map CostEntry.destination
           let fresh := (h.vector.map Prod.fst).filter (fun d => decide (d ∉ held) && decide (d ≠ s.image.number))
           let room := 16 - held.length
           (∀ d, (∃ e ∈ t.rc.entries, e.destination = d) ↔ d ∈ held ∨ d ∈ fresh.take room)
           ∧ t.rc.entries.length = held.length + min room fresh.length
           ∧ t.rc.full = (s.rc.full || decide (room < fresh.length))
           ∧ (∀ e ∈ t.rc.entries, e.destination ∉ held → ∀ q, q ≠ p → e.heard.get q = 16777215)
           ∧ ∀ e ∈ t.rc.entries, e.destination ∈ held →
               ∃ e0 ∈ s.rc.entries, e0.destination = e.destination ∧ ∀ q, q ≠ p → e.heard.get q = e0.heard.get q)
        ∧ (let old := (s.link p).state
           let mid := r1.state
           let new := (t.link p).state
           (∃ outlier : Bool, t = (s.setRx p .idle).afterLinkEvent p (r1.evaluate s.image s.now false)
             (s.rc.take s.image p h.vector)
             ([.hailRx] ++ (if outlier then [.delayOutlier] else [])
               ++ (if new = .faded ∧ mid ≠ .faded then [.fadeCount] else []))
             true (old.usable && !mid.usable || mid.usable && !new.usable) (!mid.usable && new.usable))
           ∧ t.snu.notices.linkDown = (if old.usable && !mid.usable || mid.usable && !new.usable
             then s.snu.notices.linkDown.raiseBit p.toNat else s.snu.notices.linkDown)
           ∧ t.snu.notices.linkUp = (if !mid.usable && new.usable
             then s.snu.notices.linkUp.raiseBit p.toNat else s.snu.notices.linkUp)
           ∧ t.snu.counter (.port p .fadeCount) = (if new = .faded ∧ mid ≠ .faded
             then (s.snu.counter (.port p .fadeCount)).bump else s.snu.counter (.port p .fadeCount)))

/-- The delay sample of an echo and its filter: an echo older than the last four HAILs gives none, a round trip outside
1..4,000,000 ns is counted, a sample near P moves it by an eighth, and the third outlier in a row rebases it. -/
def Obligations.DelaySampleFollowsTheEcho : Prop :=
  ∀ (r : LinkRecord) (g : Image) (a : Time) (h : Hail),
    (h.echo = none → r.sample g a h = (r, false))
    ∧ (∀ e, h.echo = some e → 3 < (r.lastSent - e.sequence).toNat → r.sample g a h = (r, false))
    ∧ (∀ (e : Echo) (rt : Int), h.echo = some e → (r.lastSent - e.sequence).toNat ≤ 3 →
        rt = ((a - e.departure).toNat : Int) - (h.departure - e.receipt).toNat →
        (rt ≤ 0 ∨ 4000000 < rt → r.sample g a h = (r, true))
        ∧ (∀ m : Nat, 0 < rt → rt ≤ 4000000 → 2 * (m : Int) ≤ rt → rt < 2 * (m : Int) + 2 →
            (r.delay = none → r.sample g a h = ({ r with delay := some m }, false))
            ∧ (∀ d, r.delay = some d → |(m : Int) - d| ≤ g.delayJump.toNat →
                ∃ d' : Nat, r.sample g a h = (({ r with delay := some d', outlierRun := 0 } : LinkRecord), false)
                  ∧ 8 * ((d' : Int) - d) ≤ (m : Int) - d ∧ (m : Int) - d < 8 * ((d' : Int) - d) + 8)
            ∧ (∀ d, r.delay = some d → (g.delayJump.toNat : Int) < |(m : Int) - d| →
                (r.outlierRun < 2 → r.sample g a h = ({ r with outlierRun := r.outlierRun + 1 }, true))
                ∧ (2 ≤ r.outlierRun → r.sample g a h = ({ r with delay := some m, outlierRun := 0 }, true)))))
    ∧ ((∀ d ∈ r.delay, d ≤ 2000000) → ∀ d ∈ (r.sample g a h).1.delay, d ≤ 2000000)

/-- HAIL_TIMER_EXPIRY: hail due is set, or merges into a HAIL already due; the next expiry is one interval later; an
idle port sends the HAIL at once, numbered one after the last. A timer that is stopped or not yet due does nothing
(log 3). -/
def Obligations.HailTimerExpiryMakesAHailDue : Prop :=
  ∀ (p : Port) (s : State),
    ((∀ x, (s.link p).hailTimer = some x → (s.now - x).toNat < s.image.hailNs) →
      exec (.hailTimerExpiry p) s = .next s)
    ∧ ∀ x, (s.link p).hailTimer = some x → s.image.hailNs ≤ (s.now - x).toNat →
        (s.tx p ≠ .idle → exec (.hailTimerExpiry p) s
          = .next (s.setLink p { s.link p with hailTimer := some (x + BitVec.ofNat 48 s.image.hailNs),
                                               hailDue := true }))
        ∧ (s.tx p = .idle → exec (.hailTimerExpiry p) s
          = .next ((s.setTx p (.hail (s.buildHail p ((s.link p).lastSent + 1)))).setLink p
              { s.link p with hailTimer := some (x + BitVec.ofNat 48 s.image.hailNs), hailDue := false,
                              lastSent := (s.link p).lastSent + 1 }))

/-- What a departing HAIL carries: the station, the port's margin and link state, the echo of the last HAIL taken, and
the cost vector poisoned for the port; and the frame it leaves as. -/
def Obligations.BuiltHailCarriesTheRecord : Prop :=
  ∀ (s : State) (p : Port) (n : Byte),
    let h := s.buildHail p n
    let r := s.link p
    (h.sender = s.image.number ∧ h.senderPort = p ∧ h.senderRole = s.image.roleOf ∧ h.sequence = n
      ∧ h.departure = s.now ∧ h.senderState = r.state)
    ∧ (p = .p4 → h.farMargin = 127)
    ∧ (p ≠ .p4 → (r.near = none → h.farMargin = -128) ∧ ∀ m, r.near = some m → h.farMargin = m)
    ∧ (r.lastHail = none → h.echo = none)
    ∧ (∀ l, r.lastHail = some l → h.echo = some ⟨l.sequence, l.departure, l.receipt⟩)
    ∧ h.vector.map Prod.fst = s.rc.entries.map CostEntry.destination
    ∧ (∀ (i : Nat) (e : CostEntry) (d c : Nat), s.rc.entries[i]? = some e → h.vector[i]? = some (d, c) →
        (e.destination = s.image.number → s.image.isEnd = true → c = 0)
        ∧ (e.destination ≠ s.image.number ∨ s.image.isEnd = false →
            (e.best = some p → c = 16777215) ∧ (e.best ≠ some p → c = e.own)))
    ∧ (hailFrame h).check = crc32 (hailFrame h).body ∧ (hailFrame h).aborted = false

/-! ### Margins and link states -/

/-- The raw margin of a status word, and the near margin it moves: by the floor of a 2^k-th of the difference, never
past the raw margin, downward at every word while it stands above it, and never out of −128..+127. -/
def Obligations.StatusWordsMoveTheNearMargin : Prop :=
  (∀ (g : Image) (w : StatusWord),
    (w.lock = false → rawMargin g w = -128)
    ∧ (w.lock = true → (g.profile w.profile).rate = 0 → rawMargin g w = -128)
    ∧ (w.lock = true → (g.profile w.profile).rate ≠ 0 →
        let x : Int := w.rsl - (g.profile w.profile).threshold.toInt
        (x < -128 → rawMargin g w = -128) ∧ (127 < x → rawMargin g w = 127)
        ∧ (-128 ≤ x → x ≤ 127 → rawMargin g w = x)))
  ∧ ∀ (k : Nat) (raw : Int), smooth k none raw = raw
      ∧ ∀ m : Int, ∃ q : Int, smooth k (some m) raw = m + q ∧ q * 2 ^ k ≤ raw - m ∧ raw - m < (q + 1) * 2 ^ k
          ∧ (raw < m → raw ≤ m + q ∧ m + q < m) ∧ (m ≤ raw → m ≤ m + q ∧ m + q ≤ raw)
          ∧ (inMargin m → inMargin raw → inMargin (m + q))

/-- MODEM_STATUS_WORD: discarded in CONFIG, on a disabled port and on the fibre port (log 25), and where it was cut
off before its third byte, a longer word being read by its first three (log 24); else profile, near margin, one
evaluation, and a recompute for a new profile or a rerouting (into or out of the usable states, or between them) and
only for these. A change into the usable states raises LINK_UP, one out of them LINK_DOWN, and an entry into FADED
counts FADE_COUNT (R79, R80). A port that leaves the usable states flushes its queue after the recompute (R78, R129,
R130). -/
def Obligations.StatusWordIsTakenInFourSteps : Prop :=
  ∀ (p : Port) (word : List Byte) (s : State),
    (s.inService = false ∨ (s.link p).enabled = false ∨ p = .p4 ∨ word.length < 3 →
      exec (.modemStatusWord p word) s = .next s)
    ∧ (∀ b0 b1 b2 rest, word = b0 :: b1 :: b2 :: rest → s.inService = true → (s.link p).enabled = true → p ≠ .p4 →
        ∃ (t : State) (w : StatusWord) (r1 : LinkRecord), exec (.modemStatusWord p word) s = .next t
          ∧ t = { s with li := t.li, lm := t.lm, rc := t.rc, fe := t.fe, snu := t.snu }
          ∧ w.lock = b0.getLsbD 7 ∧ w.profile.toNat = b0.toNat % 8
          ∧ w.rsl = max (-240) (min 0 (b1 ++ b2 : BitVec 16).toInt)
          ∧ r1 = { s.link p with profile := w.profile,
                                 near := some (smooth s.image.marginShift.toNat (s.link p).near
                                   (rawMargin s.image w)) }
          ∧ t.link p = r1.evaluate s.image s.now false
          ∧ (∀ q, t.rx q = s.rx q) ∧ (∀ q, q ≠ p → (t.link q).hailedFrom (s.link q))
          ∧ (let old := (s.link p).state
             let new := (t.link p).state
             let rerouted := old ≠ new ∧ (old.usable = true ∨ new.usable = true)
             (w.profile ≠ (s.link p).profile ∨ rerouted → t.costsSettled)
             ∧ t.rc.hearsAs s.rc none
             ∧ (let counted := if new = .faded ∧ old ≠ .faded then [PortCounter.fadeCount] else []
                (w.profile ≠ (s.link p).profile ∨ rerouted → t = s.afterLinkEvent p (t.link p) s.rc counted true
                  (old.usable && !new.usable) (!old.usable && new.usable))
                ∧ (w.profile = (s.link p).profile → ¬ rerouted →
                  t = s.afterLinkEvent p (t.link p) s.rc counted false false false))
             ∧ t.snu.notices.linkDown = (if old.usable && !new.usable
               then s.snu.notices.linkDown.raiseBit p.toNat else s.snu.notices.linkDown)
             ∧ t.snu.notices.linkUp = (if !old.usable && new.usable
               then s.snu.notices.linkUp.raiseBit p.toNat else s.snu.notices.linkUp)
             ∧ t.snu.counter (.port p .fadeCount) = (if new = .faded ∧ old ≠ .faded
               then (s.snu.counter (.port p .fadeCount)).bump else s.snu.counter (.port p .fadeCount))))

/-- The transitions of the link state machine, tested in order: out of SEEKING, CLEAR, DEGRADED and FADED; out of HOLD
and TRIAL by partner drain, by E below R with the hold duration doubled, or at the state timer's expiry alone onward
(R71). OFF and DRAINED have none, and E unknown moves nothing but a drained partner's port and an expired timer's. -/
def Obligations.LinkStateMachineTakesFirstTransition : Prop :=
  ∀ (r : LinkRecord) (g : Image) (now : Time) (timer : Bool),
    let go (x : LinkState) (c : Option FadeCause) (t : Option StateTimer) : LinkRecord :=
      { r with state := x, fadeCause := c, stateTimer := t, lastChange := now }
    let drained := r.neighbourState = some .drained
    (r.state = .off ∨ r.state = .drained → r.evaluate g now timer = r)
    ∧ (r.near = none ∨ r.far = none → r.state = .seeking ∨ r.state = .faded → r.evaluate g now timer = r)
    ∧ (r.near = none ∨ r.far = none → timer = false → ¬ drained → r.evaluate g now timer = r)
    ∧ ∀ (m f : Int), r.near = some m → r.far = some f →
      let e := min m f
      (r.state = .seeking →
        (r.neighbour ≠ none → r.delay ≠ none → g.restoreLevel ≤ e → ¬ drained →
          r.evaluate g now timer = go (if g.degradeLevel ≤ e then .clear else .degraded) none
            (some ⟨.settle, now, g.settleNs⟩))
        ∧ (r.neighbour = none ∨ r.delay = none ∨ e < g.restoreLevel ∨ drained → r.evaluate g now timer = r))
      ∧ (r.state = .clear ∨ r.state = .degraded → drained → r.evaluate g now timer = go .seeking none none)
      ∧ (r.state = .clear → ¬ drained →
          (e < g.fadeLevel → r.evaluate g now timer = go .faded (some .rain) none)
          ∧ (g.fadeLevel ≤ e → e < g.degradeLevel → r.evaluate g now timer = go .degraded none r.stateTimer)
          ∧ (g.fadeLevel ≤ e → g.degradeLevel ≤ e → r.evaluate g now timer = r))
      ∧ (r.state = .degraded → ¬ drained →
          (e < g.fadeLevel → r.evaluate g now timer = go .faded (some .rain) none)
          ∧ (g.fadeLevel ≤ e → g.degradeLevel + g.hysteresisLevel ≤ e →
              r.evaluate g now timer = go .clear none r.stateTimer)
          ∧ (g.fadeLevel ≤ e → e < g.degradeLevel + g.hysteresisLevel → r.evaluate g now timer = r))
      ∧ (r.state = .faded →
          (r.silence ≠ none → g.restoreLevel ≤ e → ¬ drained →
            ∀ d, r.holdDuration = some d →
              r.evaluate g now timer = go .hold none (some ⟨.hold, now, d * 1000000⟩))
          ∧ (r.silence = none ∨ e < g.restoreLevel ∨ drained → r.evaluate g now timer = r))
      ∧ (r.state = .hold ∨ r.state = .trial →
          (drained → r.evaluate g now timer = go .seeking none none)
          ∧ (¬ drained → e < g.restoreLevel → r.evaluate g now timer = { go .faded (some .rain) none with
              holdDuration := r.holdDuration.map (fun d => min (2 * d) g.holdMaxMs) })
          ∧ (¬ drained → g.restoreLevel ≤ e → timer = false → r.evaluate g now timer = r)
          ∧ (¬ drained → g.restoreLevel ≤ e → timer = true → r.state = .hold →
              r.evaluate g now timer = go .trial none (some ⟨.trial, now, g.trialNs⟩))
          ∧ (¬ drained → g.restoreLevel ≤ e → timer = true → r.state = .trial →
              r.evaluate g now timer = go (if g.degradeLevel ≤ e then .clear else .degraded) none
                (some ⟨.settle, now, g.settleNs⟩)))

/-- SILENCE_EXPIRY by link state: a serving port fades with cause SILENT, one already FADED changes its cause alone, and
one in SEEKING or DRAINED forgets its neighbour and the costs heard from it. A port that was usable flushes its queue
after the recompute (R78, R129, R130). A timer that is stopped or not yet due does nothing (log 3). -/
def Obligations.SilenceExpiryFollowsTheLinkState : Prop :=
  ∀ (p : Port) (s : State),
    ((∀ x, (s.link p).silence = some x → (s.now - x).toNat < s.image.silenceNs) →
      exec (.silenceExpiry p) s = .next s)
    ∧ ∀ x, (s.link p).silence = some x → s.image.silenceNs ≤ (s.now - x).toNat →
      let r : LinkRecord := { s.link p with silence := none, far := if p = .p4 then (s.link p).far else none }
      let r' : LinkRecord := { r with state := .faded, fadeCause := some .silent, stateTimer := none, lastChange := s.now }
      (r.state = .faded → exec (.silenceExpiry p) s = .next (s.setLink p { r with fadeCause := some .silent }))
      ∧ (r.state = .hold ∨ r.state = .trial →
          exec (.silenceExpiry p) s = .next ((s.setLink p r').count (.port p .fadeCount)))
      ∧ (r.state = .clear ∨ r.state = .degraded → ∃ t, exec (.silenceExpiry p) s = .next t
          ∧ t = { s with li := t.li, lm := t.lm, rc := t.rc, fe := t.fe, snu := t.snu }
          ∧ t.link p = r' ∧ t.queue p = .empty ∧ t.rc.hearsAs s.rc none ∧ t.costsSettled
          ∧ t = s.afterLinkEvent p r' s.rc [.fadeCount] true true false
          ∧ (∀ q, t.rx q = s.rx q) ∧ (∀ q, q ≠ p → (t.link q).hailedFrom (s.link q))
          ∧ t.snu.counter (.port p .fadeCount) = (s.snu.counter (.port p .fadeCount)).bump
          ∧ t.snu.notices.linkDown = s.snu.notices.linkDown.raiseBit p.toNat)
      ∧ (r.state = .seeking ∨ r.state = .drained → ∃ t, exec (.silenceExpiry p) s = .next t
          ∧ t = { s.setLink p { r with neighbour := none, neighbourRole := none, neighbourState := none,
                                       lastHail := none, delay := none, outlierRun := 0 } with
                  rc := t.rc, snu := { s.snu with notices := t.snu.notices } }
          ∧ (∀ e ∈ t.rc.entries, e.heard.get p = 16777215) ∧ t.rc.hearsAs s.rc (some p) ∧ t.costsSettled
          ∧ t = s.afterLinkEvent p (t.link p) (s.rc.forget p) [] true false false)

/-- HOLD_EXPIRY, TRIAL_EXPIRY and SETTLE_EXPIRY: a hold becomes a trial, a trial a return to service, and either a
fade with a doubled hold if E stands below R; a settled port returns to HOLD_BASE. A port that a transition takes into
or out of the usable states, or between them, has one recompute, and its reports and its flush with it (R78 to R80,
R129). Undue expiries do nothing (log 3). -/
def Obligations.StateTimerExpiriesAdvanceTheReturn : Prop :=
  ∀ (p : Port) (s : State),
    let r := s.link p
    let due (k : TimerKind) := ∃ x, r.stateTimer = some x ∧ x.kind = k ∧ x.duration ≤ (s.now - x.start).toNat
    let go (x : LinkState) (t : Option StateTimer) : LinkRecord :=
      { r with state := x, fadeCause := none, stateTimer := t, lastChange := s.now }
    let failed : LinkRecord :=
      { r with state := .faded, fadeCause := some .rain, stateTimer := none, lastChange := s.now,
               holdDuration := r.holdDuration.map (fun d => min (2 * d) s.image.holdMaxMs) }
    (¬ due .hold → exec (.holdExpiry p) s = .next s) ∧ (¬ due .trial → exec (.trialExpiry p) s = .next s)
    ∧ (¬ due .settle → exec (.settleExpiry p) s = .next s)
    ∧ (due .hold → r.state = .hold →
        (r.neighbourState = some .drained → exec (.holdExpiry p) s = .next (s.setLink p (go .seeking none)))
        ∧ (r.neighbourState ≠ some .drained →
            (r.below s.image.restoreLevel = true →
              exec (.holdExpiry p) s = .next ((s.setLink p failed).count (.port p .fadeCount)))
            ∧ (r.below s.image.restoreLevel = false →
              exec (.holdExpiry p) s = .next (s.setLink p (go .trial (some ⟨.trial, s.now, s.image.trialNs⟩))))))
    ∧ (due .trial → r.state = .trial →
        (r.neighbourState = some .drained → exec (.trialExpiry p) s = .next (s.setLink p (go .seeking none)))
        ∧ (r.neighbourState ≠ some .drained →
            (r.below s.image.restoreLevel = true →
              exec (.trialExpiry p) s = .next ((s.setLink p failed).count (.port p .fadeCount)))
            ∧ (r.below s.image.restoreLevel = false →
              ∃ t, exec (.trialExpiry p) s = .next t
                ∧ t = { s.setLink p (go (if r.atLeast s.image.degradeLevel = true then .clear else .degraded)
                          (some ⟨.settle, s.now, s.image.settleNs⟩)) with
                        rc := t.rc, snu := { s.snu with notices := t.snu.notices } }
                ∧ t.rc.hearsAs s.rc none ∧ t.costsSettled
                ∧ t = s.afterLinkEvent p (t.link p) s.rc [] true false true
                ∧ t.snu.notices.linkUp = s.snu.notices.linkUp.raiseBit p.toNat)))
    ∧ (due .settle → ∃ t, exec (.settleExpiry p) s = .next t
        ∧ t = { s with li := t.li, lm := t.lm, rc := t.rc, fe := t.fe, snu := t.snu }
        ∧ t.link p = ({ r with holdDuration := some s.image.holdBaseMs, stateTimer := none } : LinkRecord).evaluate
            s.image s.now false
        ∧ (∀ q, t.rx q = s.rx q) ∧ (∀ q, q ≠ p → (t.link q).hailedFrom (s.link q))
        ∧ t.rc.hearsAs s.rc none
        ∧ (let old := r.state
           let new := (t.link p).state
           let counted := if new = .faded ∧ old ≠ .faded then [PortCounter.fadeCount] else []
           let rerouted := old ≠ new ∧ (old.usable = true ∨ new.usable = true)
           (rerouted → t.costsSettled ∧ t = s.afterLinkEvent p (t.link p) s.rc counted true (old.usable && !new.usable)
             (!old.usable && new.usable))
           ∧ (¬ rerouted → t = s.afterLinkEvent p (t.link p) s.rc counted false false false)
           ∧ (new = old → t = s.setLink p (t.link p))))

/-- FADE_TIME_ACCRUAL takes 1,000 ns from the remainder and counts a microsecond; with less it does nothing (log 3).
Every counted event adds one, a wrap returning the counter to 0, setting both its marks and raising COUNT_WRAP with
its scope. -/
def Obligations.CountersCountAndWrap : Prop :=
  (∀ (p : Port) (s : State),
    ((s.link p).fadeRemainder < 1000 → exec (.fadeTimeAccrual p) s = .next s)
    ∧ (1000 ≤ (s.link p).fadeRemainder → exec (.fadeTimeAccrual p) s
        = .next ((s.setLink p { s.link p with fadeRemainder := (s.link p).fadeRemainder - 1000 }).count
            (.port p .fadeTimeUs))))
  ∧ ∀ (n : Statistics) (c d : CounterName),
    (d ≠ c → (n.count c).counter d = n.counter d)
    ∧ ((n.counter c).value.toNat < 4294967295 →
        ((n.count c).counter c).value.toNat = (n.counter c).value.toNat + 1
        ∧ ((n.count c).counter c).rollover = (n.counter c).rollover
        ∧ ((n.count c).counter c).wrapSinceRead = (n.counter c).wrapSinceRead ∧ (n.count c).notices = n.notices)
    ∧ ((n.counter c).value.toNat = 4294967295 → (n.count c).counter c = ⟨0, true, true⟩
        ∧ (n.count c).notices = n.notices.set .countWrap (n.notices.countWrap.raiseBit
            (match c with | .port p _ => p.toNat | .station _ => 5)))

/-! ### Routes -/

/-- The cost via a port: UNREACHABLE on a port that is not usable or has line rate 0, or for a destination not heard of
there; else heard cost, P, the serialization of REFLEN + 40 bytes rounded up, and the degrade penalty, capped. -/
def Obligations.CostViaAPortFollowsItsLink : Prop :=
  ∀ (e : CostEntry) (g : Image) (lm : PerPort LinkRecord) (p : Port),
    let r := lm.get p
    let rate := if p = .p4 then g.fibreRate.toNat else (g.profile r.profile).rate.toNat
    let via := (e.via g lm).get p
    (r.state ≠ .clear → r.state ≠ .degraded → via = 16777215)
    ∧ (rate = 0 → via = 16777215)
    ∧ (e.heard.get p = 16777215 → via = 16777215)
    ∧ ∀ d m : Nat, r.state = .clear ∨ r.state = .degraded → r.delay = some d → 0 < rate →
        e.heard.get p < 16777215 →
        (g.refLen.toNat + 40) * 8000 ≤ m * rate → m * rate < (g.refLen.toNat + 40) * 8000 + rate →
        via = min (e.heard.get p + d + m + (if r.state = .degraded then g.degradePenalty.toNat else 0)) 16777214

/-- The choice at a recompute: best and second port of lowest via cost, ties to the lowest index, with their costs; and
the own entry as it always stands. -/
def Obligations.RecomputeChoosesTheCheapestPorts : Prop :=
  ∀ (e : CostEntry) (g : Image) (lm : PerPort LinkRecord),
    let v := (e.via g lm).get
    let n := e.recompute g lm
    n.destination = e.destination ∧ n.heard = e.heard
    ∧ (g.isEnd = true → e.destination = g.number →
        n.own = 0 ∧ n.best = none ∧ n.second = none ∧ n.secondCost = 16777215)
    ∧ (g.isEnd = false ∨ e.destination ≠ g.number →
        (n.best = none ↔ ∀ q, 16777215 ≤ v q)
        ∧ (n.best = none → n.own = 16777215 ∧ n.second = none ∧ n.secondCost = 16777215)
        ∧ (n.second = none → n.secondCost = 16777215)
        ∧ ∀ p, n.best = some p →
            n.own = v p ∧ v p < 16777215
            ∧ (∀ q, v p ≤ v q ∧ (q.toNat < p.toNat → v p < v q))
            ∧ (n.second = none ↔ ∀ q, q ≠ p → 16777215 ≤ v q)
            ∧ ∀ x, n.second = some x → x ≠ p ∧ n.secondCost = v x ∧ v x < 16777215
                ∧ ∀ q, q ≠ p → v x ≤ v q ∧ (q.toNat < x.toNat → v x < v q))

/-- The notices of a recompute: ROUTE_CHANGE is left at the last entry whose best port changed, NO_ROUTE at the last
that lost its route; with none such, neither is raised, and a second recompute changes and raises nothing. -/
def Obligations.RecomputeRaisesRouteNotices : Prop :=
  ∀ s : State,
    let new (e : CostEntry) := e.recompute s.image s.lm
    let lost (e : CostEntry) := e.own < 16777215 ∧ (new e).own = 16777215
    let t := s.recompute
    t = { s with rc := t.rc, snu := { s.snu with notices := t.snu.notices } }
    ∧ t.rc.entries = s.rc.entries.map new ∧ t.rc.full = s.rc.full ∧ t.recompute = t
    ∧ (∀ k, k ≠ .routeChange → k ≠ .noRoute → t.snu.notices.get k = s.snu.notices.get k)
    ∧ ((∀ e ∈ s.rc.entries, (new e).best = e.best) → t.snu.notices.routeChange = s.snu.notices.routeChange)
    ∧ ((∀ e ∈ s.rc.entries, ¬ lost e) → t.snu.notices.noRoute = s.snu.notices.noRoute)
    ∧ ∀ (l1 : List CostEntry) (e : CostEntry) (l2 : List CostEntry), s.rc.entries = l1 ++ e :: l2 →
        ((new e).best ≠ e.best → (∀ x ∈ l2, (new x).best = x.best) →
          t.snu.notices.routeChange = { s.snu.notices.routeChange with
            pending := true, setSinceReport := true, detail := BitVec.ofNat 8 e.destination })
        ∧ (lost e → (∀ x ∈ l2, ¬ lost x) →
          t.snu.notices.noRoute = { s.snu.notices.noRoute with
            pending := true, setSinceReport := true, detail := BitVec.ofNat 8 e.destination })

/-! ### Notices -/

/-- A raise sets pending and set-since-report and adds its bit; STATUS_READ shows the marks as they stood, then marks
every pending kind reported (R155, R156, R163); ACK_NOTICES clears the named kinds that are reported and not raised
since (R158). The snapshot is the station status and then each port named, field by field (R164, R180). The draw that
each STATUS_READ takes and the record of what it drove are the model's own (log 8, log 13, log 14); that the top
notice follows the order of power-on in CONFIG is log 31's. -/
def Obligations.NoticesAreRaisedReportedAndAcknowledged : Prop :=
  (∀ (x : Notice) (i : Nat), i < 8 →
    x.raiseBit i = { x with pending := true, setSinceReport := true, detail := (x.raiseBit i).detail }
    ∧ (∀ j < 8, (x.raiseBit i).detail.getLsbD j = (x.detail.getLsbD j || decide (j = i)))
    ∧ (x.raiseBit i).acked = x.raiseBit i ∧ (x.acked.raiseBit i).pending = true)
  ∧ (∀ (s : State) (mask : BitVec 5),
    (s.status mask).length = 26 + 7 * (portsOf mask).length ∧ statusFields (s.status mask) s
    ∧ ∀ (i : Nat) (p : Port), (portsOf mask)[i]? = some p →
        portFields (s.status mask) (26 + 7 * i) (s.link p) (s.queue p))
  ∧ ∀ (dev : BitVec 2) (s : State), s.addressed dev →
    (∀ (mask : BitVec 5) (clocks : Nat), ∃ t, exec (.statusRead dev mask clocks) s = .next t
      ∧ t = { s with draws := s.draws + 1,
                     slc := { s.slc with snapshot := s.status mask, dataOut := shifted (s.status mask) clocks },
                     snu := { s.snu with notices := t.snu.notices } }
      ∧ ∀ k, ((s.snu.notices.get k).pending = true →
            t.snu.notices.get k = { s.snu.notices.get k with reported := true, setSinceReport := false })
          ∧ ((s.snu.notices.get k).pending = false → t.snu.notices.get k = s.snu.notices.get k))
    ∧ ∀ kinds : Byte,
      (s.inService = false → exec (.ackNotices dev kinds) s = .next (s.setResult ⟨0, 10⟩ .refusedState none))
      ∧ (s.inService = true → 64 ≤ kinds.toNat →
          exec (.ackNotices dev kinds) s = .next (s.setResult ⟨0, 10⟩ .refusedOperand none))
      ∧ (s.inService = true → kinds.toNat < 64 → ∃ n, exec (.ackNotices dev kinds) s
            = .next ({ s with snu := { s.snu with notices := n } }.setResult ⟨0, 10⟩ .accepted none)
          ∧ ∀ k : NoticeKind, let x := s.snu.notices.get k
              (kinds.getLsbD k.toNat = true ∧ x.pending = true ∧ x.reported = true ∧ x.setSinceReport = false →
                n.get k = ⟨false, false, false, 0⟩)
              ∧ (kinds.getLsbD k.toNat = false ∨ x.pending = false ∨ x.reported = false ∨ x.setSinceReport = true →
                n.get k = x))

/-- The alarm line is asserted exactly while an enabled kind is pending; the top notice is the first such kind in the
configured order of groups and of kinds within them, which is the stored one from START on and that of power-on before
it (R168, R169: log 31), and none exactly while the line is deasserted. That this limit holds too for the codes 6 and
7, which no run follows, is the model's choice (log 14). -/
def Obligations.AlarmAndTopNoticeFollowTheEnables : Prop :=
  ∀ s : State,
    let on (k : NoticeKind) := (s.snu.notices.get k).pending = true ∧ s.image.noticeEnable.getLsbD k.toNat = true
    let o : Byte := if s.inService = true then s.image.noticeOrder else 0
    let a : List NoticeKind := if o.getLsbD 3 then [.linkUp, .linkDown] else [.linkDown, .linkUp]
    let b : List NoticeKind := if o.getLsbD 4 then [.noRoute, .routeChange] else [.routeChange, .noRoute]
    let c : List NoticeKind := if o.getLsbD 5 then [.timeEvent, .countWrap] else [.countWrap, .timeEvent]
    (s.alarm = true ↔ ∃ k, on k)
    ∧ (s.topNotice = none ↔ s.alarm = false)
    ∧ ∀ l, (o.toNat % 8 = 0 ∧ l = a ++ b ++ c) ∨ (o.toNat % 8 = 1 ∧ l = a ++ c ++ b)
          ∨ (o.toNat % 8 = 2 ∧ l = b ++ a ++ c) ∨ (o.toNat % 8 = 3 ∧ l = b ++ c ++ a)
          ∨ (o.toNat % 8 = 4 ∧ l = c ++ a ++ b) ∨ (o.toNat % 8 = 5 ∧ l = c ++ b ++ a) →
        ∀ (l1 : List NoticeKind) (k : NoticeKind) (l2 : List NoticeKind), l = l1 ++ k :: l2 → on k →
          (∀ j ∈ l1, ¬ on j) → s.topNotice = some k

/-! ### Time input, time read and schedule -/

/-- A TIN edge is captured at once, or held while a TIME_READ of this chip runs, the last of several edges standing;
the release of the TIME_READ applies it. A release with no TIME_READ in progress does nothing (log 4). What a
TIME_READ returns is the latched part and then the two stages, field by field (R32, R180; an empty stage's bytes are
log 15's, the record of what was driven log 8's). -/
def Obligations.TimeInputCapturesAroundATimeRead : Prop :=
  (∀ t : TimeUnit, t.latched.length = 34 ∧ t.stages.length = 26 ∧ timeFields (t.latched ++ t.stages) t)
  ∧ ∀ s : State,
    let c : Stamp := ⟨s.tu.ic, s.tu.st⟩
    let seen := min 65535 (s.tu.edgesSeen + 1)
    (s.slc.timeRead = false →
      (s.tu.runMark = false → exec .tinRisingEdge s = .next { s with tu := { s.tu with
          edgesSeen := seen, previous := s.tu.latest, latest := some c, period := none, runMark := true } })
      ∧ (∀ l, s.tu.runMark = true → s.tu.latest = some l → exec .tinRisingEdge s = .next (State.raiseBit
          { s with tu := { s.tu with edgesSeen := seen, previous := some l, latest := some c,
                                     period := some (c.ic - l.ic) } } .timeEvent 0)))
    ∧ (s.slc.timeRead = true →
      (s.tu.held = none → exec .tinRisingEdge s = .next { s with tu := { s.tu with
          edgesSeen := seen, held := some c } })
      ∧ (s.tu.held ≠ none → exec .tinRisingEdge s = .next { s with tu := { s.tu with
          edgesSeen := seen, held := some c, missed := min 255 (s.tu.missed + 1) } }))
    ∧ (∀ dev, s.addressed dev → exec (.timeRead dev) s
        = .next { s with slc := { s.slc with timeRead := true, snapshot := s.tu.latched } })
    ∧ ∀ n : Nat, (s.slc.timeRead = false → exec (.timeReadRelease n) s = .next s)
      ∧ (s.slc.timeRead = true →
          let line := { s.slc with timeRead := false, dataOut := shifted (s.slc.snapshot ++ s.tu.stages) n }
          (s.tu.held = none → exec (.timeReadRelease n) s = .next { s with slc := line })
          ∧ (∀ x, s.tu.held = some x → s.tu.runMark = false → exec (.timeReadRelease n) s
              = .next { s with slc := line, tu := { s.tu with held := none, previous := s.tu.latest, latest := some x,
                                                              period := none, runMark := true } })
          ∧ (∀ x l, s.tu.held = some x → s.tu.runMark = true → s.tu.latest = some l →
              exec (.timeReadRelease n) s = .next (State.raiseBit
                { s with slc := line, tu := { s.tu with held := none, previous := some l, latest := some x,
                                                        period := some (x.ic - l.ic) } } .timeEvent 0)))

/-- DRAIN and UNDRAIN on a port, and a schedule match: the channel is disarmed, its action taken on each port of its
mask, and TIME_EVENT raised, with no link notice and no fade counted; the Cost Table keeps its entries and heard costs
and, if it was settled, stays so. The ports are acted on in ascending order, each with its own recompute, and then its
flush, where its action took it out of the usable states (R76, R78, R129). A channel that does not match does nothing
(log 3). -/
def Obligations.ScheduleMatchActsOnItsPorts : Prop :=
  (∀ (r : LinkRecord) (now : Time),
    let go (x : LinkState) : LinkRecord :=
      { r with state := x, fadeCause := none, stateTimer := none, lastChange := now }
    (r.state = .off ∨ r.state = .drained → r.act now .drain = r)
    ∧ (r.state ≠ .off → r.state ≠ .drained → r.act now .drain = go .drained)
    ∧ (r.state = .drained ∨ r.state = .faded ∨ r.state = .hold ∨ r.state = .trial →
        r.act now .undrain = go .seeking)
    ∧ (r.state = .off ∨ r.state = .seeking ∨ r.state = .clear ∨ r.state = .degraded → r.act now .undrain = r))
  ∧ (∀ (s : State) (p : Port) (a : Action),
    let r := (s.link p).act s.now a
    ((s.link p).state = .clear ∨ (s.link p).state = .degraded → a = .drain →
      s.act (p, a) = (s.setLink p r).recompute.flush p)
    ∧ ((s.link p).state ≠ .clear ∧ (s.link p).state ≠ .degraded ∨ a = .undrain → s.act (p, a) = s.setLink p r))
  ∧ ∀ s : State,
    let c := s.tu.schedule
    (c.armed = false ∨ 2 ^ 47 ≤ (s.tu.st - c.target).toNat → exec .scheduleMatch s = .next s)
    ∧ (c.armed = true → (s.tu.st - c.target).toNat < 2 ^ 47 → ∃ t, exec .scheduleMatch s = .next t
        ∧ t = { s with li := t.li, lm := t.lm, rc := t.rc, fe := t.fe, snu := t.snu,
                       tu := { s.tu with schedule := { c with armed := false } } }
        ∧ t = State.raiseBit (((portsOf c.mask).map (fun p => (p, c.action))).foldl State.act
            { s with tu := { s.tu with schedule := { c with armed := false } } }) .timeEvent 1
        ∧ (∀ q, t.rx q = s.rx q ∧ (t.link q).hailedFrom
            (if c.mask.getLsbD q.toNat = true then (s.link q).act s.now c.action else s.link q))
        ∧ t.rc.hearsAs s.rc none ∧ (s.costsSettled → t.costsSettled)
        ∧ t.snu.notices.timeEvent = s.snu.notices.timeEvent.raiseBit 1
        ∧ t.snu.notices.linkDown = s.snu.notices.linkDown ∧ t.snu.notices.linkUp = s.snu.notices.linkUp
        ∧ ∀ q, t.snu.counter (.port q .fadeCount) = s.snu.counter (.port q .fadeCount))

/-! ### Local port -/

/-- INGRESS_START and the requests that do not go through: one begun while a reply is due, or aborted, is discarded; any
other is refused with the cause of the first test it fails, in a reply that is sent at once on an idle outward path. A
request of fewer than two bytes has no payload (R178); one without its kind byte is a FLOOD or an AIMED one by a free
value, for which each request judged takes a draw (log 27). A start while a request is in progress and an end without
one do nothing (log 4). The reply's bytes are those of R178: one for a refusal, with its cause. -/
def Obligations.IngressRequestsAreDiscardedOrRefused : Prop :=
  (∀ s : State,
    (s.lpc.request = none → exec .ingressStart s
      = .next { s with lpc := { s.lpc with request := some s.lpc.reply.isSome } })
    ∧ (s.lpc.request ≠ none → exec .ingressStart s = .next s)
    ∧ ∀ (bytes : List Byte) (aborted : Bool),
      (s.lpc.request = none → exec (.ingressCompletion bytes aborted) s = .next s)
      ∧ (s.lpc.request = some true ∨ s.lpc.request ≠ none ∧ aborted = true →
          exec (.ingressCompletion bytes aborted) s = .next { s with lpc := { s.lpc with request := none } }))
  ∧ (∀ (s : State) (bytes : List Byte), s.lpc.request = some false → bytes.length < 2 →
    let refused (c : IngressCause) := exec (.ingressCompletion bytes false) s
      = .next { s with draws := s.draws + 1, snu := s.snu.count (.station .ingressRefused),
                       lpc := { s.lpc with request := none, reply := some (.refused c),
                                           replySending := s.lpc.delivering.isNone || s.lpc.replySending } }
    (s.inService = false → refused .notInService)
    ∧ (s.inService = true →
      (s.image.roleOf = .relay → refused .role) ∧ (s.image.roleOf = .source → refused .length)
      ∧ (s.image.roleOf = .floor →
          (∀ b, bytes = [b] → (b.getLsbD 7 = true → refused .length) ∧ (b.getLsbD 7 = false → refused .role))
          ∧ (bytes = [] → refused .length ∨ refused .role))))
  ∧ (∀ c : IngressCause, replyFields (Reply.refused c).bytes (.refused c))
  ∧ ∀ (s : State) (b0 b1 : Byte) (payload : List Byte), s.lpc.request = some false →
    let g := s.image
    let aimed := b0.getLsbD 7 = true
    let target := b1.toNat % 64
    let refused (c : IngressCause) := exec (.ingressCompletion (b0 :: b1 :: payload) false) s
      = .next { s with draws := s.draws + 1, snu := s.snu.count (.station .ingressRefused),
                       lpc := { s.lpc with request := none, reply := some (.refused c),
                                           replySending := s.lpc.delivering.isNone || s.lpc.replySending } }
    (s.inService = false → refused .notInService)
    ∧ (s.inService = true →
      (g.roleOf = .relay ∨ ¬ aimed ∧ g.roleOf ≠ .source → refused .role)
      ∧ (g.roleOf ≠ .relay → (aimed ∨ g.roleOf = .source) →
        (payload.length < 8 ∨ 1024 < payload.length → refused .length)
        ∧ (8 ≤ payload.length → payload.length ≤ 1024 →
          (aimed → target = 0 ∨ target = g.number → refused .target)
          ∧ (aimed → target ≠ 0 → target ≠ g.number →
              (∀ e, s.rc.entry? target = some e → 16777215 ≤ e.own) → refused .noRoute)
          ∧ (¬ aimed ∨ target ≠ 0 ∧ target ≠ g.number ∧ (∃ e, s.rc.entry? target = some e ∧ e.own < 16777215) →
              256 ≤ s.fe.pool.length → refused .noBuffer))))

/-- An accepted request: a free buffer filled with the header of R138, the sequence marked in slot 0 and the ring, the
egress copies placed, the ingress's reference released, INGRESS_OK counted, and a reply with the copies placed. The draw
that the request takes is the model's own (log 27). The reply's ten bytes hold its fields (R178). -/
def Obligations.IngressAcceptedBecomesAMessage : Prop :=
  (∀ (n : BitVec 16) (t : Time) (k : Nat), replyFields (Reply.accepted n t k).bytes (.accepted n t k))
  ∧ ∀ (s : State) (b0 b1 : Byte) (payload : List Byte),
    let g := s.image
    let n := s.lpc.nextSequence
    let aimed := b0.getLsbD 7
    let target := b1.toNat % 64
    s.lpc.request = some false → s.inService = true → g.roleOf ≠ .relay → (aimed = true ∨ g.roleOf = .source) →
    8 ≤ payload.length → payload.length ≤ 1024 →
    (aimed = true → target ≠ 0 ∧ target ≠ g.number ∧ ∃ e, s.rc.entry? target = some e ∧ e.own < 16777215) →
    s.fe.pool.length < 256 → s.fe.wf →
      ∃ (i : Nat) (fe : Forwarding) (b : Buffer) (af : ArrivalFilter) (r : State × Nat),
        (s.fe.buffer? i = none ∧ fe.buffer? i = some b ∧ fe.queues = s.fe.queues
          ∧ ∀ j, j ≠ i → fe.buffer? j = s.fe.buffer? j)
        ∧ b = { id := i, payload := payload, stamp := ⟨s.tu.ic, s.tu.st⟩, arrival := .loc, refs := 1,
                used := ⟨false, false, false, false, false⟩,
                header := { kind := if aimed then .aimed else .flood, origin := g.number,
                            startNumber := g.startNumber, sequence := n, target := if aimed then target else 0,
                            urgency := .ofBits b0.toNat, budget := g.initBudget.toNat, hops := 0,
                            originStamp := s.tu.st, routeDelay := 0, inexact := false,
                            length := payload.length } }
        ∧ af = { s.af with own := { s.af.own with highest := n, window := af.own.window, lastHeard := s.now },
                           ring := addToRing s.af.ring ⟨s.af.own.origin, s.af.own.startNumber, n, .loc, s.now⟩ }
        ∧ (∀ k < 512, af.own.window.getLsbD k
            = (decide (k = 0) || (decide (1 ≤ k) && s.af.own.window.getLsbD (k - 1))))
        ∧ (let s1 := { s with draws := s.draws + 1, fe := fe, af := af,
                              lpc := { s.lpc with request := none, nextSequence := n + 1 } }
           r = s1.makeCopies b
           ∧ (aimed = false → r = s1.egressCopies b (s1.floodPorts .loc g.number)))
        ∧ exec (.ingressCompletion (b0 :: b1 :: payload) false) s
            = .next (((r.1.release i).count (.station .ingressOk)).replyDue (.accepted n s.tu.st r.2))
        ∧ r.2 ≤ 5

/-- The outward path: a delivery starts only with delivery ready shown, none in progress and no reply due; heads older
than AGE_LIMIT are dropped; the record's bytes hold its fields (R178); what REPLY_END, DELIVERY_READY, its withdrawal
and DELIVERY_COMPLETION do. An end of what was not being sent does nothing (log 4); the last end indication is kept as
a record (log 8). -/
def Obligations.OutwardPathDeliversAndReplies : Prop :=
  (∀ s : State,
    (s.lpc.deliveryReady = false ∨ s.lpc.delivering ≠ none ∨ s.lpc.reply ≠ none ∨ s.lpc.queue = [] →
      s.tryDeliver = s)
    ∧ ∀ i l b, s.lpc.deliveryReady = true → s.lpc.delivering = none → s.lpc.reply = none → s.lpc.queue = i :: l →
        s.fe.buffer? i = some b →
        let age := (s.now - b.stamp.ic).toNat
        let h := b.header
        (age ≤ s.image.ageNs → ∃ (d : Nat) (x : Bool) (rec : DeliveryRecord),
            s.tryDeliver = { s with lpc := { s.lpc with delivering := some rec } }
            ∧ rec = { kind := h.kind, origin := h.origin, startNumber := h.startNumber, sequence := h.sequence,
                      target := h.target, urgency := h.urgency, originStamp := h.originStamp, length := h.length,
                      payload := b.payload, hops := h.hops, routeDelay := d, inexact := x,
                      arrivalSt := b.stamp.st, winning := b.arrival }
            ∧ d = min (h.routeDelay + age) 4294967295 ∧ (x = true ↔ h.inexact = true ∨ 4294967295 < h.routeDelay + age))
        ∧ (s.image.ageNs < age → s.tryDeliver
            = ((({ s with lpc := { s.lpc with queue := l } } : State).release i).count
                (.station .deliveryDrop)).tryDeliver))
  ∧ (∀ d : DeliveryRecord, deliveryFields d.bytes d)
  ∧ ∀ s : State,
    (s.lpc.replySending = false → exec .replyEnd s = .next s)
    ∧ (s.lpc.replySending = true → exec .replyEnd s = .next (State.tryDeliver
        { s with lpc := { s.lpc with reply := none, replySending := false, outwardEnd := some .normal } }))
    ∧ exec .deliveryReady s = .next (State.tryDeliver { s with lpc := { s.lpc with deliveryReady := true } })
    ∧ exec .deliveryReadyWithdrawn s = .next { s with lpc := { s.lpc with deliveryReady := false } }
    ∧ (s.lpc.delivering = none → exec .deliveryCompletion s = .next s)
    ∧ ∀ i l, s.lpc.delivering ≠ none → s.lpc.queue = i :: l →
        let done : State := (({ s with lpc := { s.lpc with queue := l, delivering := none,
                                                           outwardEnd := some .normal } } : State).release i).count
          (.station .delivered)
        (s.lpc.reply = none → exec .deliveryCompletion s = .next done.tryDeliver)
        ∧ (s.lpc.reply ≠ none → exec .deliveryCompletion s
            = .next { done with lpc := { done.lpc with replySending := true } })

/-! ### Service line -/

/-- START in CONFIG: the first item that fails its test refuses it with CONFIG_INVALID; a sound image puts the station
in SERVICE with every enabled port in SEEKING and its first HAIL, numbered 0, on the line. The tests are the ranges
and the further tests of R169 and R170; that bits beyond a mask's members fail is log 11's, bits 7..6 of NOTICE_ORDER
log 30's; that every block acts before the first HAILs are built is log 10's. -/
def Obligations.StartTestsTheImageAndStartsEveryBlock : Prop :=
  (∀ g : Image,
    let within (i lo x hi : Nat) : Prop := g.itemValid i = true ↔ lo ≤ x ∧ x ≤ hi
    let f := g.fade.toInt
    let h : Int := g.hysteresis.toNat
    let d := g.degrade.toInt
    within 1 1 g.stationNumber.toNat 63 ∧ within 2 0 g.role.toNat 2 ∧ g.itemValid 3 = true
    ∧ within 4 0 g.crossFeed.toNat 1 ∧ within 5 0 g.portEnable.toNat 31 ∧ within 6 0 g.floodMask.toNat 15
    ∧ within 7 0 g.fibreFlood.toNat 2 ∧ within 8 10 g.fibreRate.toNat 10000
    ∧ (∀ n : Fin 8, g.itemValid (9 + n.val) = true ↔
        (-240 ≤ (g.profiles.get n).threshold.toInt ∧ (g.profiles.get n).threshold.toInt ≤ 0)
        ∧ ((g.profiles.get n).rate = 0
            ∨ 10 ≤ (g.profiles.get n).rate.toNat ∧ (g.profiles.get n).rate.toNat ≤ 2000)
        ∧ (n = 7 → (∃ p : Port, p ≠ .p4 ∧ g.portEnable.getLsbD p.toNat = true) →
            ∃ m : Fin 8, (g.profiles.get m).rate ≠ 0))
    ∧ (g.itemValid 17 = true ↔ 100 ≤ g.hailInterval.toNat ∧ g.hailInterval.toNat ≤ 10000
        ∧ g.hailInterval.toNat % 100 = 0)
    ∧ within 18 2 g.lossCount.toNat 15 ∧ within 19 100 g.delayJump.toNat 1000000 ∧ within 20 0 g.marginShift.toNat 4
    ∧ (g.itemValid 21 = true ↔ -128 ≤ f ∧ f ≤ 120) ∧ within 22 1 g.hysteresis.toNat 40
    ∧ (g.itemValid 23 = true ↔ f < f + h ∧ f + h ≤ d ∧ d ≤ 127 - h)
    ∧ within 24 1 g.holdBase.toNat 1000 ∧ within 25 g.holdBase.toNat g.holdMax.toNat 60000
    ∧ within 26 10 g.trialWindow.toNat 5000 ∧ within 27 64 g.refLen.toNat 1024
    ∧ within 28 0 g.degradePenalty.toNat 1000000 ∧ within 29 0 g.pairClass.toNat 4
    ∧ within 30 0 g.pairWindow.toNat 1000000 ∧ within 31 10 g.ageLimit.toNat 10000
    ∧ within 32 1 g.initBudget.toNat 31 ∧ within 33 1 g.originIdle.toNat 10000
    ∧ within 34 0 g.noticeEnable.toNat 63
    ∧ (g.itemValid 35 = true ↔ g.noticeOrder.toNat < 64 ∧ g.noticeOrder.toNat % 8 ≤ 5))
  ∧ ∀ (dev : BitVec 2) (s : State), s.addressed dev →
    let g := s.image
    (s.inService = true → exec (.start dev) s = .next (s.setResult ⟨0, 1⟩ .refusedState none))
    ∧ (∀ i, s.inService = false → 1 ≤ i → i ≤ 35 → g.itemValid i = false →
        (∀ j, 1 ≤ j → j < i → g.itemValid j = true) →
        exec (.start dev) s = .next (s.setResult ⟨0, 1⟩ .configInvalid (some i)))
    ∧ (s.inService = false → (∀ i, 1 ≤ i → i ≤ 35 → g.itemValid i = true) → s.dormant → s.quiet →
        ∃ t, exec (.start dev) s = .next t
          ∧ t = { s with
              li := t.li, lm := t.lm, rc := t.rc,
              af := { s.af with own := ⟨g.number, g.startNumber, s.lpc.nextSequence - 1, 0, s.now⟩ },
              slc := { s.slc with station := .service, last := ⟨some ⟨0, 1⟩, .accepted, none⟩ } }
          ∧ t.rc.full = s.rc.full
          ∧ t.rc.entries = (if g.roleOf = .relay then [] else
              [⟨g.number, ⟨16777215, 16777215, 16777215, 16777215, 16777215⟩, 0, none, none, 16777215⟩])
          ∧ ∀ p, t.rx p = .idle
            ∧ (g.portEnable.getLsbD p.toNat = false → t.link p = powerOnRecord p ∧ t.tx p = .idle)
            ∧ (g.portEnable.getLsbD p.toNat = true →
                t.link p = { powerOnRecord p with
                  enabled := true, state := .seeking, holdDuration := some g.holdBase.toNat, hailTimer := some s.now,
                  hailDue := false, lastSent := 0, lastChange := s.now }
                ∧ t.tx p = .hail
                    { sender := g.number, senderPort := p, senderRole := g.roleOf, sequence := 0, departure := s.now,
                      farMargin := if p = .p4 then 127 else -128, senderState := .seeking, echo := none,
                      vector := if g.roleOf = .relay then [] else [(g.number, 0)] }))

/-- REJOIN: the links forget their neighbours and seek, the queues empty and give back their references, arrivals are
abandoned, the delivery in progress is cut, with an abort in the outward record (log 8), the notices clear, and each
idle enabled port sends a HAIL, built from what REJOIN leaves (log 10). What was already abandoned or refused, and
what a disabled port sends, stays. -/
def Obligations.RejoinReturnsTheLinksToSeeking : Prop :=
  ∀ (dev : BitVec 2) (s : State), s.addressed dev → s.inService = true → s.dormant → s.fe.wf →
    ∃ t, exec (.rejoin dev) s = .next t
      ∧ t = { s with
          li := t.li, lm := t.lm, rc := t.rc, fe := t.fe,
          tu := { s.tu with runMark := false, schedule := { s.tu.schedule with armed := false } },
          af := { s.af with ring := [] },
          lpc := { s.lpc with
            queue := [], delivering := none, replySending := s.lpc.reply.isSome || s.lpc.replySending,
            outwardEnd := if s.lpc.delivering.isSome = true then some .abort else s.lpc.outwardEnd },
          slc := { s.slc with last := ⟨some ⟨0, 2⟩, .accepted, none⟩ },
          snu := { s.snu with notices := .empty } }
      ∧ t.rc.full = false
      ∧ t.rc.entries.length = (if s.image.isEnd = true then
          (s.rc.entries.filter (fun e => decide (e.destination = s.image.number))).length else 0)
      ∧ (∀ e ∈ t.rc.entries, s.image.isEnd = true
          ∧ e = ⟨s.image.number, ⟨16777215, 16777215, 16777215, 16777215, 16777215⟩, 0, none, none, 16777215⟩)
      ∧ (s.image.isEnd = true → (∃ e ∈ s.rc.entries, e.destination = s.image.number) → t.rc.entries ≠ [])
      ∧ (∀ i, t.fe.refsOf i
          = s.fe.refsOf i - ((Port.all.map (fun p => (s.queue p).holds i)).sum + s.lpc.queue.count i))
      ∧ ∀ p, t.queue p = .empty
        ∧ (∀ i, s.rx p = .traffic i → t.rx p = .abandonedTraffic i)
        ∧ (∀ a, s.rx p = .hail a → t.rx p = .abandonedHail)
        ∧ (s.rx p = .unknownClass → t.rx p = .abandonedUnknown)
        ∧ (s.rx p = .idle ∨ s.rx p = .unstored ∨ s.rx p = .abandonedHail ∨ s.rx p = .abandonedUnknown
            ∨ (∃ i, s.rx p = .abandonedTraffic i) → t.rx p = s.rx p)
        ∧ ((s.link p).enabled = false → t.link p = s.link p ∧ t.tx p = s.tx p)
        ∧ ((s.link p).enabled = true →
            let r := s.link p
            let r' : LinkRecord :=
              { r with neighbour := none, neighbourRole := none, neighbourState := none, lastHail := none,
                       delay := none, outlierRun := 0, silence := none, far := if p = .p4 then r.far else none,
                       state := .seeking, fadeCause := none, stateTimer := none, lastChange := s.now,
                       holdDuration := some s.image.holdBase.toNat, hailTimer := some s.now }
            (s.tx p = .idle → t.link p = { r' with hailDue := false, lastSent := r.lastSent + 1 }
              ∧ t.tx p = .hail
                  { sender := s.image.number, senderPort := p, senderRole := s.image.roleOf, sequence := r.lastSent + 1,
                    departure := s.now, farMargin := if p = .p4 then 127 else r.near.getD (-128),
                    senderState := .seeking, echo := none,
                    vector := List.replicate t.rc.entries.length (s.image.number, 0) })
            ∧ (s.tx p ≠ .idle → t.link p = { r' with hailDue := true } ∧ t.tx p = s.tx p))

/-- FORCE takes one action byte per named port, all or none; ARM_SCHEDULE arms the channel and tests it at the same
release; DISARM clears the armed flag alone. FORCE raises no link notice and counts no fade; it leaves the Cost Table
its entries and heard costs and, if it was settled, settled. It acts port after port, each with the recompute and the
flush that a schedule match's action has (R76, R78, R129). -/
def Obligations.ForceAndScheduleCommandsAct : Prop :=
  ∀ (dev : BitVec 2) (s : State), s.addressed dev → s.inService = true →
    exec (.disarm dev) s = .next (State.setResult
      { s with tu := { s.tu with schedule := { s.tu.schedule with armed := false } } } ⟨0, 5⟩ .accepted none)
    ∧ (∀ (target : Time) (action : Byte) (mask : BitVec 5),
        (action ≠ 1 → action ≠ 2 →
          exec (.armSchedule dev target action mask) s = .next (s.setResult ⟨0, 4⟩ .refusedOperand none))
        ∧ (action = 1 ∨ action = 2 →
          ∃ r, exec .scheduleMatch { s with tu := { s.tu with
                schedule := ⟨true, target, if action = 1 then .drain else .undrain, mask⟩ } } = .next r
            ∧ exec (.armSchedule dev target action mask) s = .next (r.setResult ⟨0, 4⟩ .accepted none)))
    ∧ ∀ (mask : BitVec 5) (actions : List Byte),
        let ps := portsOf mask
        let bad := actions.length < ps.length ∨ ∃ i < ps.length, actions.getD i 0 = 0 ∨ 4 ≤ (actions.getD i 0).toNat
        (bad → exec (.force dev mask actions) s = .next (s.setResult ⟨0, 3⟩ .refusedOperand none))
        ∧ (¬ bad → ∃ t, exec (.force dev mask actions) s = .next t
            ∧ t = { s with li := t.li, lm := t.lm, rc := t.rc, fe := t.fe, snu := t.snu,
                           slc := { s.slc with last := ⟨some ⟨0, 3⟩, .accepted, none⟩ } }
            ∧ t = State.setResult (((ps.zip actions).map (fun x => (x.1, if x.2 = 2 then .undrain else .drain))).foldl
                State.act s) ⟨0, 3⟩ .accepted none
            ∧ t.snu.notices.linkDown = s.snu.notices.linkDown ∧ t.snu.notices.linkUp = s.snu.notices.linkUp
            ∧ t.rc.hearsAs s.rc none ∧ (s.costsSettled → t.costsSettled)
            ∧ ∀ q, t.rx q = s.rx q ∧ t.snu.counter (.port q .fadeCount) = s.snu.counter (.port q .fadeCount)
              ∧ (mask.getLsbD q.toNat = false → (t.link q).hailedFrom (s.link q))
              ∧ ∀ i, ps[i]? = some q → (t.link q).hailedFrom
                  ((s.link q).act s.now (if actions.getD i 0 = 2 then .undrain else .drain)))

/-- TIME_TRIM replaces the trim by its operand or the nearer limit; TIME_STEP adds its offset to station time alone,
or is refused beyond one second, and tests the schedule channel against the new station time. Both run in either
state. While the reset pin is asserted station time and the trim are held, and neither command moves them (R23, log
5). -/
def Obligations.TimeCommandsTrimAndStep : Prop :=
  ∀ (dev : BitVec 2) (s : State) (x : BitVec 32), s.addressed dev →
    (let trimmed (v : Int) (r : Result) := exec (.timeTrim dev x) s
        = .next (State.setResult { s with tu := { s.tu with trim := if s.resetHeld = true then s.tu.trim else v } }
            ⟨0, 7⟩ r none)
     (-200000 ≤ x.toInt → x.toInt ≤ 200000 → trimmed x.toInt .accepted)
     ∧ (200000 < x.toInt → trimmed 200000 .acceptedClamped)
     ∧ (x.toInt < -200000 → trimmed (-200000) .acceptedClamped))
    ∧ (x.toInt < -1000000000 ∨ 1000000000 < x.toInt →
        exec (.timeStep dev x) s = .next (s.setResult ⟨0, 6⟩ .refusedOperand none))
    ∧ (-1000000000 ≤ x.toInt → x.toInt ≤ 1000000000 → ∃ (st : Time) (r : State),
        (s.resetHeld = false → (st.toNat : Int) = (s.tu.st.toNat + x.toInt) % 281474976710656)
        ∧ (s.resetHeld = true → st = s.tu.st)
        ∧ exec .scheduleMatch { s with tu := { s.tu with st := st } } = .next r
        ∧ exec (.timeStep dev x) s = .next (r.setResult ⟨0, 6⟩ .accepted none))

/-- CLEAR_COUNTERS zeroes the named scopes with their marks, fade remainders and race statistics; a microsecond of
fade time that has been reached and still waits to be counted is counted after the clear, and the counter then reads 1
(R152; that it waits as a remainder of 1,000 ns is log 17's). CLEAR_ROLLOVER clears the named flags that have not
wrapped since they were read, or is refused where the transfer carries too few sets. Both are refused in CONFIG. -/
def Obligations.ClearCommandsReachTheirScopes : Prop :=
  ∀ (dev : BitVec 2) (mask : BitVec 5) (station : Bool) (s : State), s.addressed dev →
    (s.inService = false →
      exec (.clearCounters dev mask station) s = .next (s.setResult ⟨0, 8⟩ .refusedState none)
      ∧ ∀ l, exec (.clearRollover dev mask station l) s = .next (s.setResult ⟨0, 9⟩ .refusedState none))
    ∧ (s.inService = true →
    let inScope (c : CounterName) : Bool := match c with | .port p _ => mask.getLsbD p.toNat | .station _ => station
    (∃ t, exec (.clearCounters dev mask station) s = .next t
      ∧ t = { s with
          lm := t.lm, af := { s.af with race := t.af.race },
          slc := { s.slc with last := ⟨some ⟨0, 8⟩, .accepted, none⟩ },
          snu := { ports := t.snu.ports, station := t.snu.station, notices := s.snu.notices } }
      ∧ (∀ c, t.snu.counter c = if inScope c = true then ⟨0, false, false⟩ else s.snu.counter c)
      ∧ ∀ p, (mask.getLsbD p.toNat = true →
            t.link p = { s.link p with fadeRemainder := (t.link p).fadeRemainder } ∧ t.af.race.get p = ⟨0, 0, 0⟩
            ∧ ((s.link p).fadeRemainder < 1000 → (t.link p).fadeRemainder = 0)
            ∧ ((s.link p).fadeRemainder = 1000 → ∃ u, exec (.fadeTimeAccrual p) t = .next u
                ∧ (u.link p).fadeRemainder = 0 ∧ u.snu.counter (.port p .fadeTimeUs) = ⟨1, false, false⟩))
          ∧ (mask.getLsbD p.toNat = false → t.link p = s.link p ∧ t.af.race.get p = s.af.race.get p))
    ∧ ∀ sets : List Byte,
      let need := 2 * (portsOf mask).length + (if station = true then 1 else 0)
      (sets.length < need →
        exec (.clearRollover dev mask station sets) s = .next (s.setResult ⟨0, 9⟩ .refusedOperand none))
      ∧ (need ≤ sets.length → ∃ t, exec (.clearRollover dev mask station sets) s = .next t
          ∧ t = { s with
              slc := { s.slc with last := ⟨some ⟨0, 9⟩, .accepted, none⟩ },
              snu := { ports := t.snu.ports, station := t.snu.station, notices := s.snu.notices } }
          ∧ (∀ c, inScope c = false → t.snu.counter c = s.snu.counter c)
          ∧ (∀ (i : Nat) (p : Port) (k : PortCounter), (portsOf mask)[i]? = some p →
              t.snu.counter (.port p k) = (let x := s.snu.counter (.port p k)
                if (ofBytes ((sets.drop (2 * i)).take 2)).testBit k.index.val = true ∧ x.wrapSinceRead = false
                then { x with rollover := false } else x))
          ∧ (station = true → ∀ k : StationCounter,
              t.snu.counter (.station k) = (let x := s.snu.counter (.station k)
                if (sets.getD (need - 1) 0).toNat.testBit k.index.val = true ∧ x.wrapSinceRead = false
                then { x with rollover := false } else x))))

/-- CONFIG_WRITE reads its body record by record: whole records are written in order and ACCEPTED in CONFIG, refused in
SERVICE; an item number outside 1..35 refuses the whole (R168); a record cut short discards it, as R165 and R179 give a
transfer cut short (log 28). -/
def Obligations.ConfigWriteStoresWholeRecords : Prop :=
  ∀ (dev : BitVec 2) (s : State) (l : List (Nat × List Byte)), s.addressed dev →
    (∀ x ∈ l, 1 ≤ x.1 ∧ x.1 ≤ 35 ∧ x.2.length = itemWidth x.1) →
    let body : List Byte := (l.map (fun x => BitVec.ofNat 8 x.1 :: x.2)).flatten
    (s.inService = false → exec (.configWrite dev body) s = .next (State.setResult
      { s with slc := { s.slc with image := l.foldl (fun g x => g.write x.1 x.2) s.image } } ⟨1, 0⟩ .accepted none))
    ∧ (s.inService = true → exec (.configWrite dev body) s = .next (s.setResult ⟨1, 0⟩ .refusedState none))
    ∧ ∀ (i : Byte) (rest : List Byte),
      (i = 0 ∨ 35 < i.toNat →
        (s.inService = false →
          exec (.configWrite dev (body ++ i :: rest)) s = .next (s.setResult ⟨1, 0⟩ .refusedOperand none))
        ∧ (s.inService = true →
          exec (.configWrite dev (body ++ i :: rest)) s = .next (s.setResult ⟨1, 0⟩ .refusedState none)))
      ∧ (1 ≤ i.toNat → i.toNat ≤ 35 → rest.length < itemWidth i.toNat →
          exec (.configWrite dev (body ++ i :: rest)) s = .next s)

/-- What is written is read back: in the image that TABLE_READ returns, a written item's bytes stand at the item's place
and every other item's are as they were, in a record of 76 bytes. And what the items stand for where the rules use them:
the durations in ns and ms (R41, R51, R71, R72, R103, R127), the levels F, R, D and H (R65) and the role (R181). Each
item number writes its own item, in the width that R181 gives it. -/
def Obligations.ImageReadsBackWhatWasWritten : Prop :=
  (∀ g : Image,
    (g.hailNs = 1000 * g.hailInterval.toNat ∧ g.silenceNs = g.lossCount.toNat * (1000 * g.hailInterval.toNat)
      ∧ g.ageNs = 1000 * g.ageLimit.toNat ∧ g.idleNs = 1000000 * g.originIdle.toNat
      ∧ g.trialNs = 1000000 * g.trialWindow.toNat ∧ g.settleNs = 32 * (1000000 * g.holdBase.toNat))
    ∧ (g.holdBaseMs = g.holdBase.toNat ∧ g.holdMaxMs = g.holdMax.toNat ∧ g.number = g.stationNumber.toNat)
    ∧ (g.fadeLevel = g.fade.toInt ∧ g.hysteresisLevel = g.hysteresis.toNat ∧ g.degradeLevel = g.degrade.toInt
      ∧ g.restoreLevel = g.fade.toInt + g.hysteresis.toNat)
    ∧ (g.role = 0 → g.roleOf = .source ∧ g.isEnd = true) ∧ (g.role = 1 → g.roleOf = .floor ∧ g.isEnd = true)
    ∧ (g.role = 2 → g.roleOf = .relay ∧ g.isEnd = false))
  ∧ (∀ (g : Image) (a b c d : Byte),
    (g.write 1 [a] = { g with stationNumber := a } ∧ g.write 2 [a] = { g with role := a }
      ∧ g.write 3 [a] = { g with startNumber := a } ∧ g.write 4 [a] = { g with crossFeed := a }
      ∧ g.write 5 [a] = { g with portEnable := a } ∧ g.write 6 [a] = { g with floodMask := a }
      ∧ g.write 7 [a] = { g with fibreFlood := a } ∧ g.write 18 [a] = { g with lossCount := a }
      ∧ g.write 20 [a] = { g with marginShift := a } ∧ g.write 21 [a] = { g with fade := a }
      ∧ g.write 22 [a] = { g with hysteresis := a } ∧ g.write 23 [a] = { g with degrade := a }
      ∧ g.write 29 [a] = { g with pairClass := a } ∧ g.write 32 [a] = { g with initBudget := a }
      ∧ g.write 34 [a] = { g with noticeEnable := a } ∧ g.write 35 [a] = { g with noticeOrder := a })
    ∧ (g.write 8 [a, b] = { g with fibreRate := a ++ b } ∧ g.write 17 [a, b] = { g with hailInterval := a ++ b }
      ∧ g.write 24 [a, b] = { g with holdBase := a ++ b } ∧ g.write 25 [a, b] = { g with holdMax := a ++ b }
      ∧ g.write 26 [a, b] = { g with trialWindow := a ++ b } ∧ g.write 27 [a, b] = { g with refLen := a ++ b }
      ∧ g.write 31 [a, b] = { g with ageLimit := a ++ b } ∧ g.write 33 [a, b] = { g with originIdle := a ++ b })
    ∧ (g.write 19 [a, b, c, d] = { g with delayJump := a ++ b ++ (c ++ d) }
      ∧ g.write 28 [a, b, c, d] = { g with degradePenalty := a ++ b ++ (c ++ d) }
      ∧ g.write 30 [a, b, c, d] = { g with pairWindow := a ++ b ++ (c ++ d) })
    ∧ ∀ n : Fin 8, g.write (9 + n.val) [a, b, c, d] = { g with profiles := g.profiles.set n.val ⟨a ++ b, c ++ d⟩ })
  ∧ (itemOffset 1 = 0 ∧ ∀ i, 1 ≤ i → i ≤ 35 →
      (itemWidth i = if i ∈ [8, 17, 24, 25, 26, 27, 31, 33] then 2
        else if i ∈ [9, 10, 11, 12, 13, 14, 15, 16, 19, 28, 30] then 4 else 1)
      ∧ itemOffset (i + 1) = itemOffset i + itemWidth i)
  ∧ ∀ (g : Image) (i : Nat) (v : List Byte), 1 ≤ i → i ≤ 35 → v.length = itemWidth i →
    (g.write i v).bytes.length = 76
    ∧ ((g.write i v).bytes.drop (itemOffset i)).take (itemWidth i) = v
    ∧ ∀ j, 1 ≤ j → j ≤ 35 → j ≠ i →
        ((g.write i v).bytes.drop (itemOffset j)).take (itemWidth j)
          = (g.bytes.drop (itemOffset j)).take (itemWidth j)

/-- COUNTER_READ and the TABLE_READs latch their data and shift it out with zeros past its end; COUNTER_READ clears
the wrap-since-read marks it covers, and its record holds each counter and flag in its place. The records of the link,
cost, seen, ring and race tables hold their fields one after the other (R164, R180; logs 12 and 13 for flags and for
bytes that stand for no field, log 33 for WON and LOST in a race record, log 8 for the record of what was driven). -/
def Obligations.ReadsLatchAndShiftOutTheirData : Prop :=
  (∀ (s : State) (mask : BitVec 5),
    (s.linkTable mask).length = 78 * (portsOf mask).length ∧ (s.raceTable mask).length = 24 * (portsOf mask).length
    ∧ (∀ (i : Nat) (p : Port), (portsOf mask)[i]? = some p →
        linkFields (s.linkTable mask) (78 * i) s.image (s.link p)
        ∧ raceFields (s.raceTable mask) (24 * i) (s.af.race.get p) (s.snu.counter (.port p .won))
            (s.snu.counter (.port p .lost)))
    ∧ s.costTable.length = 1 + 26 * s.rc.entries.length
    ∧ (s.rc.entries.length < 256 → bytesAt s.costTable 0 1 = s.rc.entries.length)
    ∧ (∀ (i : Nat) (e : CostEntry), s.rc.entries[i]? = some e → costFields s.costTable (1 + 26 * i) e)
    ∧ s.ringTable.length = 1 + 11 * s.af.ring.length
    ∧ (s.af.ring.length < 256 → bytesAt s.ringTable 0 1 = s.af.ring.length)
    ∧ (∀ (i : Nat) (e : RingEntry), s.af.ring[i]? = some e → ringFields s.ringTable (1 + 11 * i) e)
    ∧ s.seenTable.length = 1184 ∧ slotFields s.seenTable 0 s.af.own
    ∧ ∀ i : Fin 15, (∀ t, s.af.slots.get i = some t → slotFields s.seenTable (74 * (i.val + 1)) t)
        ∧ (s.af.slots.get i = none → bytesAt s.seenTable (74 * (i.val + 1)) 1 = 0))
  ∧ (∀ (s : State) (mask : BitVec 5) (station : Bool) (k : StationCounter),
    s.counterTable (scopesOf mask station)
      = ((portsOf mask).map (fun p => s.snu.scopeBytes (.port p))).flatten
        ++ (if station = true then s.snu.scopeBytes .station else [])
    ∧ bytesAt (s.snu.scopeBytes .station) (4 * k.index.val) 4 = (s.snu.counter (.station k)).value.toNat
    ∧ (bytesAt (s.snu.scopeBytes .station) 32 1).testBit k.index.val = (s.snu.counter (.station k)).rollover)
  ∧ ∀ (dev : BitVec 2) (mask : BitVec 5) (station : Bool) (n : Nat) (s : State), s.addressed dev →
    (let line (data : List Byte) := { s.slc with snapshot := data, dataOut := shifted data n }
     exec (.tableReadLink dev mask n) s = .next { s with draws := s.draws + 1, slc := line (s.linkTable mask) }
     ∧ exec (.tableReadCost dev n) s = .next { s with slc := line s.costTable }
     ∧ exec (.tableReadSeen dev n) s = .next { s with draws := s.draws + 1, slc := line s.seenTable }
     ∧ exec (.tableReadRing dev n) s = .next { s with slc := line s.ringTable }
     ∧ exec (.tableReadRace dev mask n) s = .next { s with slc := line (s.raceTable mask) }
     ∧ exec (.tableReadConfig dev n) s = .next { s with slc := line s.image.bytes }
     ∧ exec (.tableReadUnknown dev n) s
        = .next (State.setResult { s with slc := line [] } ⟨4, 0⟩ .unknown none)
     ∧ ∃ t, exec (.counterRead dev mask station n) s = .next t
        ∧ t = { s with
            slc := line (s.counterTable (scopesOf mask station)),
            snu := { ports := t.snu.ports, station := t.snu.station, notices := s.snu.notices } }
        ∧ ∀ c, t.snu.counter c = (if (match c with | .port p _ => mask.getLsbD p.toNat | .station _ => station) = true
            then { s.snu.counter c with wrapSinceRead := false } else s.snu.counter c))
    ∧ (s.counterTable (scopesOf mask station)).length = 66 * (portsOf mask).length + (if station = true then 33 else 0)
    ∧ ∀ (p : Port) (k : PortCounter),
        ofBytes (((s.snu.scopeBytes (.port p)).drop (4 * k.index.val)).take 4) = (s.snu.counter (.port p k)).value.toNat
        ∧ (ofBytes ((s.snu.scopeBytes (.port p)).drop 64)).testBit k.index.val = (s.snu.counter (.port p k)).rollover

/-- Commands that a station state does not take are refused; unknown codes and types record UNKNOWN alone; a transfer
cut short, or one of another device code, changes nothing, the record of outputs included (log 23); and a new transfer
first releases a TIME_READ (log 7). -/
def Obligations.RefusedAndForeignTransfersChangeNothing : Prop :=
  ∀ (dev : BitVec 2) (s : State),
    (s.addressed dev →
      (∀ code, exec (.unknownCommand dev code) s = .next (s.setResult ⟨0, code⟩ .unknown none))
      ∧ (∀ type, exec (.unknownTransferType dev type) s = .next (s.setResult ⟨type, 0⟩ .unknown none))
      ∧ (s.inService = false →
          (∀ c code, (c, code) ∈ [(Instr.rejoin dev, (2 : Byte)), (.disarm dev, 5)]
            ∨ (∃ m a, (c, code) = (.force dev m a, 3)) ∨ (∃ x a m, (c, code) = (.armSchedule dev x a m, 4)) →
            exec c s = .next (s.setResult ⟨0, code⟩ .refusedState none))))
    ∧ (s.slc.timeRead = false → exec .transferCutShort s = .next s
        ∧ ∀ c, serviceDevice? c = some dev → dev ≠ s.slc.deviceCode → exec c s = .next s)
    ∧ (s.slc.timeRead = true → ∃ r, exec (.timeReadRelease 0) s = .next r ∧ exec .transferCutShort s = .next r
        ∧ r.slc.timeRead = false ∧ ∀ c, serviceDevice? c = some dev → exec c s = exec c r)

/-! ### Formats -/

/-- The transfer decoder reads every well-formed service-line command back from the bytes of its transfer, with every
operand, and a TIME_READ as its latch and its release. -/
def Obligations.TransfersDecodeToTheirCommands : Prop :=
  (∀ (c : Instr) (bytes : List Byte), c.wellFormed = true → encodeTransfer c = some bytes →
    decodeTransfer bytes false = [c])
  ∧ (∀ c d, serviceDevice? c = some d → (∀ e, c ≠ .timeRead e) → (encodeTransfer c).isSome = true)
  ∧ ∀ (dev : BitVec 2) (n : Nat), decodeTransfer (readTransfer dev 5 0 n) false = [.timeRead dev, .timeReadRelease n]

/-- Route headers and HAILs survive the line: a frame as it departs passes the tests of the next station, which reads
back every field, with 0 in the bits and bytes of a header that stand for none (R174, R175). What a Line Interface
hands its equipment is the frame class, 1 for traffic and 2 for a HAIL, the body, and the check, least significant
byte first (R18, R173). The check is the CRC-32 of R173: each byte is taken into the register least significant bit
first, with the generator's bits in that order, from a register of ones, and complemented at the end; over "123456789"
it is 0xCBF43926. -/
def Obligations.FramesSurviveTheLine : Prop :=
  (∀ (h : RouteHeader) (payload : List Byte),
    1 ≤ h.origin → h.origin ≤ 63 → (h.kind = .flood → h.target = 0) →
    (h.kind = .aimed → 1 ≤ h.target ∧ h.target ≤ 63) → 1 ≤ h.budget → h.hops + h.budget ≤ 31 →
    h.routeDelay ≤ 4294967295 → 8 ≤ h.length → h.length ≤ 1024 → payload.length = h.length →
      (trafficFrame h payload).body.length = 24 + payload.length
      ∧ (let body := (trafficFrame h payload).body
         bytesAt body 0 1 / 4 % 8 = 0 ∧ bytesAt body 8 2 = 0 ∧ bytesAt body 22 2 = 0)
      ∧ checkTraffic (trafficFrame h payload) = some (h, payload))
  ∧ (∀ (s : State) (p : Port),
    (s.tx p = .idle → s.departing p = none)
    ∧ (∀ h, s.tx p = .hail h → s.departing p = some (2, hailFrame h))
    ∧ ∀ i h b, s.tx p = .traffic i h → s.fe.buffer? i = some b → s.departing p = some (1, trafficFrame h b.payload))
  ∧ (∀ (f : Frame),
    (frameBytes f).length = f.body.length + 4 ∧ (frameBytes f).take f.body.length = f.body
    ∧ (∀ i < 4, ((frameBytes f).drop f.body.length).getD i 0 = f.check.extractLsb' (8 * i) 8)
    ∧ frameOfBytes (frameBytes f) f.aborted = f)
  ∧ (let shift (r : BitVec 32) : BitVec 32 := if r.getLsbD 0 = true then (r >>> 1) ^^^ 0xEDB88320#32 else r >>> 1
     crc32 [] = ~~~ 0xFFFFFFFF#32
     ∧ (∀ (l : List Byte) (b : Byte),
        crc32 (l ++ [b]) = ~~~ (Nat.iterate shift 8 (~~~ (crc32 l) ^^^ b.setWidth 32)))
     ∧ crc32 [0x31, 0x32, 0x33, 0x34, 0x35, 0x36, 0x37, 0x38, 0x39] = 0xCBF43926#32)
  ∧ ∀ h : Hail,
    1 ≤ h.sender → h.sender ≤ 63 → inMargin h.farMargin → h.vector.length ≤ 16 →
    h.vector.Pairwise (fun x y => x.1 < y.1) → (∀ x ∈ h.vector, 1 ≤ x.1 ∧ x.1 ≤ 63 ∧ x.2 ≤ 16777215) →
      (hailFrame h).body.length = 12 + (if h.echo.isSome = true then 13 else 0) + 4 * h.vector.length
      ∧ (let body := (hailFrame h).body
         bytesAt body 1 1 / 64 = 0 ∧ bytesAt body 1 1 / 8 % 2 = 0 ∧ bytesAt body 3 1 / 8 % 16 = 0)
      ∧ checkHail (hailFrame h) = some h

/-! ### Laws that every step keeps -/

/-- Every buffer's reference count equals the number of its holders, and the pool keeps its form: each buffer in use
once, with a reference. Every step keeps it. -/
def Obligations.StepKeepsReferencesCounted : Prop :=
  (∀ s t : State, s.fe.wf → step s = .next t → t.fe.wf)
  ∧ ∀ s t : State, s.fe.wf ∧ s.referencesCounted → step s = .next t → t.fe.wf ∧ t.referencesCounted

/-- Disabled ports stay as power-on left them, CONFIG stays empty of traffic and routes, and every queue, table and
count stays within its size. Every step keeps it. -/
def Obligations.StepKeepsDisabledPortsConfigAndSizes : Prop :=
  ∀ s t : State, s.dormant ∧ s.quiet ∧ s.withinLimits → step s = .next t → t.dormant ∧ t.quiet ∧ t.withinLimits

/-- A port in service has a neighbour and a delay estimate, a fade cause stands in FADED alone, and the state timer fits
the link state. Every step keeps it. -/
def Obligations.StepKeepsLinkRecordsLawful : Prop :=
  ∀ s t : State, (∀ p, (s.link p).lawful) → step s = .next t → ∀ p, (t.link p).lawful

/-- Margins stay within −128..+127 and where the link state says they are, and hold durations within
HOLD_BASE..HOLD_MAX. Every step keeps it. -/
def Obligations.StepKeepsMarginsAndHoldDurations : Prop :=
  (∀ s t : State, s.dormant ∧ (∀ p, (s.link p).marginsAgree s.image (fibrePort p)) → step s = .next t →
    t.dormant ∧ ∀ p, (t.link p).marginsAgree t.image (fibrePort p))
  ∧ ∀ s t : State,
    s.dormant ∧ (s.inService = true → s.image.holdBaseMs ≤ s.image.holdMaxMs)
      ∧ (∀ p, (s.link p).holdWithin s.image) → step s = .next t →
    t.dormant ∧ (t.inService = true → t.image.holdBaseMs ≤ t.image.holdMaxMs) ∧ ∀ p, (t.link p).holdWithin t.image

/-- Every Cost Table entry is the cheapest choice over the links as they stand, and a port out of service queues
nothing. Every step keeps it. -/
def Obligations.StepKeepsRoutesCheapestAndIdleQueuesEmpty : Prop :=
  ∀ s t : State, s.dormant ∧ s.quiet ∧ s.costsSettled ∧ s.idleQueuesEmpty → step s = .next t →
    t.dormant ∧ t.quiet ∧ t.costsSettled ∧ t.idleQueuesEmpty

/-- No origin holds two Seen Table slots, none but slot 0 holds this station, each slot's window marks its highest
sequence, and slot 0 stays one sequence behind the next. Every step keeps it. -/
def Obligations.StepKeepsSeenTableLawful : Prop :=
  ∀ s t : State, s.dormant ∧ s.quiet ∧ s.seenLawful → step s = .next t → t.dormant ∧ t.quiet ∧ t.seenLawful

/-- The reset state has every law that the steps keep. -/
def Obligations.ResetHasEveryLaw : Prop :=
  let s := State.reset
  s.fe.wf ∧ s.referencesCounted ∧ s.dormant ∧ s.quiet ∧ s.withinLimits ∧ (∀ p, (s.link p).lawful)
  ∧ (∀ p, (s.link p).marginsAgree s.image (fibrePort p)) ∧ (∀ p, (s.link p).holdWithin s.image)
  ∧ s.costsSettled ∧ s.idleQueuesEmpty ∧ s.seenLawful

/-- What no command may touch: the interval clock and SERVICE but for POWER_ON, the image in SERVICE, station time but
for a step, the next sequence but for an ingress, a pending notice but for an ACK or REJOIN, the waiting commands
ever. -/
def Obligations.CommandsLeaveWhatIsNotTheirs : Prop :=
  ∀ (c : Instr) (s t : State), exec c s = .next t →
    t.pending = s.pending
    ∧ (c ≠ .powerOn →
        t.tu.ic = s.tu.ic ∧ t.tu.frac = s.tu.frac
        ∧ ((∀ dev x, c ≠ .timeStep dev x) → t.tu.st = s.tu.st)
        ∧ ((∀ dev x, c ≠ .timeTrim dev x) → t.tu.trim = s.tu.trim)
        ∧ ((∀ b a, c ≠ .ingressCompletion b a) → t.lpc.nextSequence = s.lpc.nextSequence)
        ∧ (s.inService = true → t.inService = true ∧ t.image = s.image)
        ∧ ((∀ dev, c ≠ .rejoin dev) → (∀ dev x, c ≠ .ackNotices dev x) →
            ∀ k, (s.snu.notices.get k).pending = true → (t.snu.notices.get k).pending = true)
        ∧ ((∀ dev, c ≠ .rejoin dev) → (∀ dev m b, c ≠ .clearCounters dev m b) →
            (∀ dev m b l, c ≠ .clearRollover dev m b l) →
            ∀ n, (s.snu.counter n).rollover = true → (t.snu.counter n).rollover = true))
end

