-- ==== Sys2Proof/Laws/State.lean ====
section
/-! SUPPORT. One lemma per field per update of the state, true by rfl, and what each accessor reads after each update,
so that no proof unfolds a record update. -/

namespace Sys2Proof.Machine

/-! ### One value per port -/

@[simp] theorem PerPort.get_set_self {α : Type} (v : PerPort α) (p : Port) (x : α) : (v.set p x).get p = x := by
  cases p <;> rfl

theorem PerPort.get_set_of_ne {α : Type} (v : PerPort α) {p q : Port} (x : α) (h : q ≠ p) :
    (v.set p x).get q = v.get q := by
  cases p <;> cases q <;> first | rfl | exact absurd rfl h

@[simp] theorem PerPort.set_set {α : Type} (v : PerPort α) (p : Port) (x y : α) :
    (v.set p x).set p y = v.set p y := by
  cases p <;> rfl

@[simp] theorem PerPort.set_get {α : Type} (v : PerPort α) (p : Port) : v.set p (v.get p) = v := by
  cases p <;> rfl

@[simp] theorem PerPort.get_fill {α : Type} (x : α) (p : Port) : (PerPort.fill x).get p = x := by
  cases p <;> rfl

@[simp] theorem PerPort.get_mapPort {α : Type} (v : PerPort α) (f : Port → α → α) (p : Port) :
    (v.mapPort f).get p = f p (v.get p) := by
  cases p <;> rfl

/-- Values that agree at every port are equal. -/
theorem PerPort.ext_get {α : Type} {v w : PerPort α} (h : ∀ p, v.get p = w.get p) : v = w := by
  cases v; cases w
  have h0 := h .p0; have h1 := h .p1; have h2 := h .p2; have h3 := h .p3; have h4 := h .p4
  simp only [PerPort.get] at h0 h1 h2 h3 h4
  subst h0 h1 h2 h3 h4
  rfl

/-! ### setLink -/

@[simp] theorem State.setLink_pending (s : State) (p : Port) (r : LinkRecord) :
    (s.setLink p r).pending = s.pending := rfl
@[simp] theorem State.setLink_draws (s : State) (p : Port) (r : LinkRecord) : (s.setLink p r).draws = s.draws := rfl
@[simp] theorem State.setLink_resetHeld (s : State) (p : Port) (r : LinkRecord) :
    (s.setLink p r).resetHeld = s.resetHeld := rfl
@[simp] theorem State.setLink_li (s : State) (p : Port) (r : LinkRecord) : (s.setLink p r).li = s.li := rfl
@[simp] theorem State.setLink_tu (s : State) (p : Port) (r : LinkRecord) : (s.setLink p r).tu = s.tu := rfl
@[simp] theorem State.setLink_lm (s : State) (p : Port) (r : LinkRecord) : (s.setLink p r).lm = s.lm.set p r := rfl
@[simp] theorem State.setLink_rc (s : State) (p : Port) (r : LinkRecord) : (s.setLink p r).rc = s.rc := rfl
@[simp] theorem State.setLink_af (s : State) (p : Port) (r : LinkRecord) : (s.setLink p r).af = s.af := rfl
@[simp] theorem State.setLink_fe (s : State) (p : Port) (r : LinkRecord) : (s.setLink p r).fe = s.fe := rfl
@[simp] theorem State.setLink_lpc (s : State) (p : Port) (r : LinkRecord) : (s.setLink p r).lpc = s.lpc := rfl
@[simp] theorem State.setLink_slc (s : State) (p : Port) (r : LinkRecord) : (s.setLink p r).slc = s.slc := rfl
@[simp] theorem State.setLink_snu (s : State) (p : Port) (r : LinkRecord) : (s.setLink p r).snu = s.snu := rfl
@[simp] theorem State.setLink_rx (s : State) (p : Port) (r : LinkRecord) (q : Port) :
    (s.setLink p r).rx q = s.rx q := rfl
@[simp] theorem State.setLink_tx (s : State) (p : Port) (r : LinkRecord) (q : Port) :
    (s.setLink p r).tx q = s.tx q := rfl
@[simp] theorem State.setLink_queue (s : State) (p : Port) (r : LinkRecord) (q : Port) :
    (s.setLink p r).queue q = s.queue q := rfl
@[simp] theorem State.setLink_image (s : State) (p : Port) (r : LinkRecord) : (s.setLink p r).image = s.image := rfl
@[simp] theorem State.setLink_inService (s : State) (p : Port) (r : LinkRecord) :
    (s.setLink p r).inService = s.inService := rfl
@[simp] theorem State.setLink_now (s : State) (p : Port) (r : LinkRecord) : (s.setLink p r).now = s.now := rfl
@[simp] theorem State.setLink_link_self (s : State) (p : Port) (r : LinkRecord) : (s.setLink p r).link p = r :=
  PerPort.get_set_self _ _ _
theorem State.setLink_link_of_ne (s : State) {p q : Port} (r : LinkRecord) (h : q ≠ p) :
    (s.setLink p r).link q = s.link q := PerPort.get_set_of_ne _ _ h

/-! ### setRx -/

@[simp] theorem State.setRx_pending (s : State) (p : Port) (x : Reception) : (s.setRx p x).pending = s.pending := rfl
@[simp] theorem State.setRx_draws (s : State) (p : Port) (x : Reception) : (s.setRx p x).draws = s.draws := rfl
@[simp] theorem State.setRx_resetHeld (s : State) (p : Port) (x : Reception) :
    (s.setRx p x).resetHeld = s.resetHeld := rfl
@[simp] theorem State.setRx_li (s : State) (p : Port) (x : Reception) :
    (s.setRx p x).li = s.li.set p { s.li.get p with rx := x } := rfl
@[simp] theorem State.setRx_tu (s : State) (p : Port) (x : Reception) : (s.setRx p x).tu = s.tu := rfl
@[simp] theorem State.setRx_lm (s : State) (p : Port) (x : Reception) : (s.setRx p x).lm = s.lm := rfl
@[simp] theorem State.setRx_rc (s : State) (p : Port) (x : Reception) : (s.setRx p x).rc = s.rc := rfl
@[simp] theorem State.setRx_af (s : State) (p : Port) (x : Reception) : (s.setRx p x).af = s.af := rfl
@[simp] theorem State.setRx_fe (s : State) (p : Port) (x : Reception) : (s.setRx p x).fe = s.fe := rfl
@[simp] theorem State.setRx_lpc (s : State) (p : Port) (x : Reception) : (s.setRx p x).lpc = s.lpc := rfl
@[simp] theorem State.setRx_slc (s : State) (p : Port) (x : Reception) : (s.setRx p x).slc = s.slc := rfl
@[simp] theorem State.setRx_snu (s : State) (p : Port) (x : Reception) : (s.setRx p x).snu = s.snu := rfl
@[simp] theorem State.setRx_link (s : State) (p : Port) (x : Reception) (q : Port) :
    (s.setRx p x).link q = s.link q := rfl
@[simp] theorem State.setRx_queue (s : State) (p : Port) (x : Reception) (q : Port) :
    (s.setRx p x).queue q = s.queue q := rfl
@[simp] theorem State.setRx_image (s : State) (p : Port) (x : Reception) : (s.setRx p x).image = s.image := rfl
@[simp] theorem State.setRx_inService (s : State) (p : Port) (x : Reception) :
    (s.setRx p x).inService = s.inService := rfl
@[simp] theorem State.setRx_now (s : State) (p : Port) (x : Reception) : (s.setRx p x).now = s.now := rfl
@[simp] theorem State.setRx_rx_self (s : State) (p : Port) (x : Reception) : (s.setRx p x).rx p = x := by
  simp [State.rx, State.setRx]
theorem State.setRx_rx_of_ne (s : State) {p q : Port} (x : Reception) (h : q ≠ p) : (s.setRx p x).rx q = s.rx q := by
  simp [State.rx, State.setRx, PerPort.get_set_of_ne _ _ h]
@[simp] theorem State.setRx_tx (s : State) (p : Port) (x : Reception) (q : Port) : (s.setRx p x).tx q = s.tx q := by
  cases p <;> cases q <;> rfl

/-! ### setTx -/

@[simp] theorem State.setTx_pending (s : State) (p : Port) (x : Transmission) :
    (s.setTx p x).pending = s.pending := rfl
@[simp] theorem State.setTx_draws (s : State) (p : Port) (x : Transmission) : (s.setTx p x).draws = s.draws := rfl
@[simp] theorem State.setTx_resetHeld (s : State) (p : Port) (x : Transmission) :
    (s.setTx p x).resetHeld = s.resetHeld := rfl
@[simp] theorem State.setTx_li (s : State) (p : Port) (x : Transmission) :
    (s.setTx p x).li = s.li.set p { s.li.get p with tx := x } := rfl
@[simp] theorem State.setTx_tu (s : State) (p : Port) (x : Transmission) : (s.setTx p x).tu = s.tu := rfl
@[simp] theorem State.setTx_lm (s : State) (p : Port) (x : Transmission) : (s.setTx p x).lm = s.lm := rfl
@[simp] theorem State.setTx_rc (s : State) (p : Port) (x : Transmission) : (s.setTx p x).rc = s.rc := rfl
@[simp] theorem State.setTx_af (s : State) (p : Port) (x : Transmission) : (s.setTx p x).af = s.af := rfl
@[simp] theorem State.setTx_fe (s : State) (p : Port) (x : Transmission) : (s.setTx p x).fe = s.fe := rfl
@[simp] theorem State.setTx_lpc (s : State) (p : Port) (x : Transmission) : (s.setTx p x).lpc = s.lpc := rfl
@[simp] theorem State.setTx_slc (s : State) (p : Port) (x : Transmission) : (s.setTx p x).slc = s.slc := rfl
@[simp] theorem State.setTx_snu (s : State) (p : Port) (x : Transmission) : (s.setTx p x).snu = s.snu := rfl
@[simp] theorem State.setTx_link (s : State) (p : Port) (x : Transmission) (q : Port) :
    (s.setTx p x).link q = s.link q := rfl
@[simp] theorem State.setTx_queue (s : State) (p : Port) (x : Transmission) (q : Port) :
    (s.setTx p x).queue q = s.queue q := rfl
@[simp] theorem State.setTx_image (s : State) (p : Port) (x : Transmission) : (s.setTx p x).image = s.image := rfl
@[simp] theorem State.setTx_inService (s : State) (p : Port) (x : Transmission) :
    (s.setTx p x).inService = s.inService := rfl
@[simp] theorem State.setTx_now (s : State) (p : Port) (x : Transmission) : (s.setTx p x).now = s.now := rfl
@[simp] theorem State.setTx_tx_self (s : State) (p : Port) (x : Transmission) : (s.setTx p x).tx p = x := by
  simp [State.tx, State.setTx]
theorem State.setTx_tx_of_ne (s : State) {p q : Port} (x : Transmission) (h : q ≠ p) : (s.setTx p x).tx q = s.tx q := by
  simp [State.tx, State.setTx, PerPort.get_set_of_ne _ _ h]
@[simp] theorem State.setTx_rx (s : State) (p : Port) (x : Transmission) (q : Port) : (s.setTx p x).rx q = s.rx q := by
  cases p <;> cases q <;> rfl

/-! ### setQueue -/

@[simp] theorem State.setQueue_pending (s : State) (p : Port) (x : EgressQueue) :
    (s.setQueue p x).pending = s.pending := rfl
@[simp] theorem State.setQueue_draws (s : State) (p : Port) (x : EgressQueue) :
    (s.setQueue p x).draws = s.draws := rfl
@[simp] theorem State.setQueue_resetHeld (s : State) (p : Port) (x : EgressQueue) :
    (s.setQueue p x).resetHeld = s.resetHeld := rfl
@[simp] theorem State.setQueue_li (s : State) (p : Port) (x : EgressQueue) : (s.setQueue p x).li = s.li := rfl
@[simp] theorem State.setQueue_tu (s : State) (p : Port) (x : EgressQueue) : (s.setQueue p x).tu = s.tu := rfl
@[simp] theorem State.setQueue_lm (s : State) (p : Port) (x : EgressQueue) : (s.setQueue p x).lm = s.lm := rfl
@[simp] theorem State.setQueue_rc (s : State) (p : Port) (x : EgressQueue) : (s.setQueue p x).rc = s.rc := rfl
@[simp] theorem State.setQueue_af (s : State) (p : Port) (x : EgressQueue) : (s.setQueue p x).af = s.af := rfl
@[simp] theorem State.setQueue_fe (s : State) (p : Port) (x : EgressQueue) :
    (s.setQueue p x).fe = { s.fe with queues := s.fe.queues.set p x } := rfl
@[simp] theorem State.setQueue_lpc (s : State) (p : Port) (x : EgressQueue) : (s.setQueue p x).lpc = s.lpc := rfl
@[simp] theorem State.setQueue_slc (s : State) (p : Port) (x : EgressQueue) : (s.setQueue p x).slc = s.slc := rfl
@[simp] theorem State.setQueue_snu (s : State) (p : Port) (x : EgressQueue) : (s.setQueue p x).snu = s.snu := rfl
@[simp] theorem State.setQueue_link (s : State) (p : Port) (x : EgressQueue) (q : Port) :
    (s.setQueue p x).link q = s.link q := rfl
@[simp] theorem State.setQueue_rx (s : State) (p : Port) (x : EgressQueue) (q : Port) :
    (s.setQueue p x).rx q = s.rx q := rfl
@[simp] theorem State.setQueue_tx (s : State) (p : Port) (x : EgressQueue) (q : Port) :
    (s.setQueue p x).tx q = s.tx q := rfl
@[simp] theorem State.setQueue_image (s : State) (p : Port) (x : EgressQueue) :
    (s.setQueue p x).image = s.image := rfl
@[simp] theorem State.setQueue_inService (s : State) (p : Port) (x : EgressQueue) :
    (s.setQueue p x).inService = s.inService := rfl
@[simp] theorem State.setQueue_now (s : State) (p : Port) (x : EgressQueue) : (s.setQueue p x).now = s.now := rfl
@[simp] theorem State.setQueue_queue_self (s : State) (p : Port) (x : EgressQueue) : (s.setQueue p x).queue p = x :=
  PerPort.get_set_self _ _ _
theorem State.setQueue_queue_of_ne (s : State) {p q : Port} (x : EgressQueue) (h : q ≠ p) :
    (s.setQueue p x).queue q = s.queue q := PerPort.get_set_of_ne _ _ h

/-! ### count -/

@[simp] theorem State.count_pending (s : State) (c : CounterName) : (s.count c).pending = s.pending := rfl
@[simp] theorem State.count_draws (s : State) (c : CounterName) : (s.count c).draws = s.draws := rfl
@[simp] theorem State.count_resetHeld (s : State) (c : CounterName) : (s.count c).resetHeld = s.resetHeld := rfl
@[simp] theorem State.count_li (s : State) (c : CounterName) : (s.count c).li = s.li := rfl
@[simp] theorem State.count_tu (s : State) (c : CounterName) : (s.count c).tu = s.tu := rfl
@[simp] theorem State.count_lm (s : State) (c : CounterName) : (s.count c).lm = s.lm := rfl
@[simp] theorem State.count_rc (s : State) (c : CounterName) : (s.count c).rc = s.rc := rfl
@[simp] theorem State.count_af (s : State) (c : CounterName) : (s.count c).af = s.af := rfl
@[simp] theorem State.count_fe (s : State) (c : CounterName) : (s.count c).fe = s.fe := rfl
@[simp] theorem State.count_lpc (s : State) (c : CounterName) : (s.count c).lpc = s.lpc := rfl
@[simp] theorem State.count_slc (s : State) (c : CounterName) : (s.count c).slc = s.slc := rfl
@[simp] theorem State.count_snu (s : State) (c : CounterName) : (s.count c).snu = s.snu.count c := rfl
@[simp] theorem State.count_link (s : State) (c : CounterName) (q : Port) : (s.count c).link q = s.link q := rfl
@[simp] theorem State.count_rx (s : State) (c : CounterName) (q : Port) : (s.count c).rx q = s.rx q := rfl
@[simp] theorem State.count_tx (s : State) (c : CounterName) (q : Port) : (s.count c).tx q = s.tx q := rfl
@[simp] theorem State.count_queue (s : State) (c : CounterName) (q : Port) : (s.count c).queue q = s.queue q := rfl
@[simp] theorem State.count_image (s : State) (c : CounterName) : (s.count c).image = s.image := rfl
@[simp] theorem State.count_inService (s : State) (c : CounterName) : (s.count c).inService = s.inService := rfl
@[simp] theorem State.count_now (s : State) (c : CounterName) : (s.count c).now = s.now := rfl

/-! ### setNotices -/

@[simp] theorem State.setNotices_pending (s : State) (n : NoticeSet) : (s.setNotices n).pending = s.pending := rfl
@[simp] theorem State.setNotices_draws (s : State) (n : NoticeSet) : (s.setNotices n).draws = s.draws := rfl
@[simp] theorem State.setNotices_resetHeld (s : State) (n : NoticeSet) :
    (s.setNotices n).resetHeld = s.resetHeld := rfl
@[simp] theorem State.setNotices_li (s : State) (n : NoticeSet) : (s.setNotices n).li = s.li := rfl
@[simp] theorem State.setNotices_tu (s : State) (n : NoticeSet) : (s.setNotices n).tu = s.tu := rfl
@[simp] theorem State.setNotices_lm (s : State) (n : NoticeSet) : (s.setNotices n).lm = s.lm := rfl
@[simp] theorem State.setNotices_rc (s : State) (n : NoticeSet) : (s.setNotices n).rc = s.rc := rfl
@[simp] theorem State.setNotices_af (s : State) (n : NoticeSet) : (s.setNotices n).af = s.af := rfl
@[simp] theorem State.setNotices_fe (s : State) (n : NoticeSet) : (s.setNotices n).fe = s.fe := rfl
@[simp] theorem State.setNotices_lpc (s : State) (n : NoticeSet) : (s.setNotices n).lpc = s.lpc := rfl
@[simp] theorem State.setNotices_slc (s : State) (n : NoticeSet) : (s.setNotices n).slc = s.slc := rfl
@[simp] theorem State.setNotices_snu (s : State) (n : NoticeSet) :
    (s.setNotices n).snu = { s.snu with notices := n } := rfl
@[simp] theorem State.setNotices_link (s : State) (n : NoticeSet) (q : Port) :
    (s.setNotices n).link q = s.link q := rfl
@[simp] theorem State.setNotices_rx (s : State) (n : NoticeSet) (q : Port) : (s.setNotices n).rx q = s.rx q := rfl
@[simp] theorem State.setNotices_tx (s : State) (n : NoticeSet) (q : Port) : (s.setNotices n).tx q = s.tx q := rfl
@[simp] theorem State.setNotices_queue (s : State) (n : NoticeSet) (q : Port) :
    (s.setNotices n).queue q = s.queue q := rfl
@[simp] theorem State.setNotices_image (s : State) (n : NoticeSet) : (s.setNotices n).image = s.image := rfl
@[simp] theorem State.setNotices_inService (s : State) (n : NoticeSet) :
    (s.setNotices n).inService = s.inService := rfl
@[simp] theorem State.setNotices_now (s : State) (n : NoticeSet) : (s.setNotices n).now = s.now := rfl

/-! ### raiseBit -/

@[simp] theorem State.raiseBit_pending (s : State) (k : NoticeKind) (i : Nat) :
    (s.raiseBit k i).pending = s.pending := rfl
@[simp] theorem State.raiseBit_draws (s : State) (k : NoticeKind) (i : Nat) : (s.raiseBit k i).draws = s.draws := rfl
@[simp] theorem State.raiseBit_resetHeld (s : State) (k : NoticeKind) (i : Nat) :
    (s.raiseBit k i).resetHeld = s.resetHeld := rfl
@[simp] theorem State.raiseBit_li (s : State) (k : NoticeKind) (i : Nat) : (s.raiseBit k i).li = s.li := rfl
@[simp] theorem State.raiseBit_tu (s : State) (k : NoticeKind) (i : Nat) : (s.raiseBit k i).tu = s.tu := rfl
@[simp] theorem State.raiseBit_lm (s : State) (k : NoticeKind) (i : Nat) : (s.raiseBit k i).lm = s.lm := rfl
@[simp] theorem State.raiseBit_rc (s : State) (k : NoticeKind) (i : Nat) : (s.raiseBit k i).rc = s.rc := rfl
@[simp] theorem State.raiseBit_af (s : State) (k : NoticeKind) (i : Nat) : (s.raiseBit k i).af = s.af := rfl
@[simp] theorem State.raiseBit_fe (s : State) (k : NoticeKind) (i : Nat) : (s.raiseBit k i).fe = s.fe := rfl
@[simp] theorem State.raiseBit_lpc (s : State) (k : NoticeKind) (i : Nat) : (s.raiseBit k i).lpc = s.lpc := rfl
@[simp] theorem State.raiseBit_slc (s : State) (k : NoticeKind) (i : Nat) : (s.raiseBit k i).slc = s.slc := rfl
@[simp] theorem State.raiseBit_snu (s : State) (k : NoticeKind) (i : Nat) :
    (s.raiseBit k i).snu = { s.snu with notices := s.snu.notices.raiseBit k i } := rfl
@[simp] theorem State.raiseBit_link (s : State) (k : NoticeKind) (i : Nat) (q : Port) :
    (s.raiseBit k i).link q = s.link q := rfl
@[simp] theorem State.raiseBit_rx (s : State) (k : NoticeKind) (i : Nat) (q : Port) :
    (s.raiseBit k i).rx q = s.rx q := rfl
@[simp] theorem State.raiseBit_tx (s : State) (k : NoticeKind) (i : Nat) (q : Port) :
    (s.raiseBit k i).tx q = s.tx q := rfl
@[simp] theorem State.raiseBit_queue (s : State) (k : NoticeKind) (i : Nat) (q : Port) :
    (s.raiseBit k i).queue q = s.queue q := rfl
@[simp] theorem State.raiseBit_image (s : State) (k : NoticeKind) (i : Nat) : (s.raiseBit k i).image = s.image := rfl
@[simp] theorem State.raiseBit_inService (s : State) (k : NoticeKind) (i : Nat) :
    (s.raiseBit k i).inService = s.inService := rfl
@[simp] theorem State.raiseBit_now (s : State) (k : NoticeKind) (i : Nat) : (s.raiseBit k i).now = s.now := rfl

/-! ### release -/

@[simp] theorem State.release_pending (s : State) (i : Nat) : (s.release i).pending = s.pending := rfl
@[simp] theorem State.release_draws (s : State) (i : Nat) : (s.release i).draws = s.draws := rfl
@[simp] theorem State.release_resetHeld (s : State) (i : Nat) : (s.release i).resetHeld = s.resetHeld := rfl
@[simp] theorem State.release_li (s : State) (i : Nat) : (s.release i).li = s.li := rfl
@[simp] theorem State.release_tu (s : State) (i : Nat) : (s.release i).tu = s.tu := rfl
@[simp] theorem State.release_lm (s : State) (i : Nat) : (s.release i).lm = s.lm := rfl
@[simp] theorem State.release_rc (s : State) (i : Nat) : (s.release i).rc = s.rc := rfl
@[simp] theorem State.release_af (s : State) (i : Nat) : (s.release i).af = s.af := rfl
@[simp] theorem State.release_fe (s : State) (i : Nat) : (s.release i).fe = s.fe.release i := rfl
@[simp] theorem State.release_lpc (s : State) (i : Nat) : (s.release i).lpc = s.lpc := rfl
@[simp] theorem State.release_slc (s : State) (i : Nat) : (s.release i).slc = s.slc := rfl
@[simp] theorem State.release_snu (s : State) (i : Nat) : (s.release i).snu = s.snu := rfl
@[simp] theorem State.release_link (s : State) (i : Nat) (q : Port) : (s.release i).link q = s.link q := rfl
@[simp] theorem State.release_rx (s : State) (i : Nat) (q : Port) : (s.release i).rx q = s.rx q := rfl
@[simp] theorem State.release_tx (s : State) (i : Nat) (q : Port) : (s.release i).tx q = s.tx q := rfl
@[simp] theorem State.release_queue (s : State) (i : Nat) (q : Port) : (s.release i).queue q = s.queue q := rfl
@[simp] theorem State.release_image (s : State) (i : Nat) : (s.release i).image = s.image := rfl
@[simp] theorem State.release_inService (s : State) (i : Nat) : (s.release i).inService = s.inService := rfl
@[simp] theorem State.release_now (s : State) (i : Nat) : (s.release i).now = s.now := rfl

/-! ### setDeliveries -/

@[simp] theorem State.setDeliveries_pending (s : State) (l : List Nat) :
    (s.setDeliveries l).pending = s.pending := rfl
@[simp] theorem State.setDeliveries_draws (s : State) (l : List Nat) : (s.setDeliveries l).draws = s.draws := rfl
@[simp] theorem State.setDeliveries_resetHeld (s : State) (l : List Nat) :
    (s.setDeliveries l).resetHeld = s.resetHeld := rfl
@[simp] theorem State.setDeliveries_li (s : State) (l : List Nat) : (s.setDeliveries l).li = s.li := rfl
@[simp] theorem State.setDeliveries_tu (s : State) (l : List Nat) : (s.setDeliveries l).tu = s.tu := rfl
@[simp] theorem State.setDeliveries_lm (s : State) (l : List Nat) : (s.setDeliveries l).lm = s.lm := rfl
@[simp] theorem State.setDeliveries_rc (s : State) (l : List Nat) : (s.setDeliveries l).rc = s.rc := rfl
@[simp] theorem State.setDeliveries_af (s : State) (l : List Nat) : (s.setDeliveries l).af = s.af := rfl
@[simp] theorem State.setDeliveries_fe (s : State) (l : List Nat) : (s.setDeliveries l).fe = s.fe := rfl
@[simp] theorem State.setDeliveries_lpc (s : State) (l : List Nat) :
    (s.setDeliveries l).lpc = { s.lpc with queue := l } := rfl
@[simp] theorem State.setDeliveries_slc (s : State) (l : List Nat) : (s.setDeliveries l).slc = s.slc := rfl
@[simp] theorem State.setDeliveries_snu (s : State) (l : List Nat) : (s.setDeliveries l).snu = s.snu := rfl
@[simp] theorem State.setDeliveries_link (s : State) (l : List Nat) (q : Port) :
    (s.setDeliveries l).link q = s.link q := rfl
@[simp] theorem State.setDeliveries_rx (s : State) (l : List Nat) (q : Port) :
    (s.setDeliveries l).rx q = s.rx q := rfl
@[simp] theorem State.setDeliveries_tx (s : State) (l : List Nat) (q : Port) :
    (s.setDeliveries l).tx q = s.tx q := rfl
@[simp] theorem State.setDeliveries_queue (s : State) (l : List Nat) (q : Port) :
    (s.setDeliveries l).queue q = s.queue q := rfl
@[simp] theorem State.setDeliveries_image (s : State) (l : List Nat) : (s.setDeliveries l).image = s.image := rfl
@[simp] theorem State.setDeliveries_inService (s : State) (l : List Nat) :
    (s.setDeliveries l).inService = s.inService := rfl
@[simp] theorem State.setDeliveries_now (s : State) (l : List Nat) : (s.setDeliveries l).now = s.now := rfl

/-! ### advanceSequence -/

@[simp] theorem State.advanceSequence_pending (s : State) : (s.advanceSequence).pending = s.pending := rfl
@[simp] theorem State.advanceSequence_draws (s : State) : (s.advanceSequence).draws = s.draws := rfl
@[simp] theorem State.advanceSequence_resetHeld (s : State) : (s.advanceSequence).resetHeld = s.resetHeld := rfl
@[simp] theorem State.advanceSequence_li (s : State) : (s.advanceSequence).li = s.li := rfl
@[simp] theorem State.advanceSequence_tu (s : State) : (s.advanceSequence).tu = s.tu := rfl
@[simp] theorem State.advanceSequence_lm (s : State) : (s.advanceSequence).lm = s.lm := rfl
@[simp] theorem State.advanceSequence_rc (s : State) : (s.advanceSequence).rc = s.rc := rfl
@[simp] theorem State.advanceSequence_af (s : State) : (s.advanceSequence).af = s.af := rfl
@[simp] theorem State.advanceSequence_fe (s : State) : (s.advanceSequence).fe = s.fe := rfl
@[simp] theorem State.advanceSequence_lpc (s : State) :
    (s.advanceSequence).lpc = { s.lpc with nextSequence := s.lpc.nextSequence + 1 } := rfl
@[simp] theorem State.advanceSequence_slc (s : State) : (s.advanceSequence).slc = s.slc := rfl
@[simp] theorem State.advanceSequence_snu (s : State) : (s.advanceSequence).snu = s.snu := rfl
@[simp] theorem State.advanceSequence_link (s : State) (q : Port) : (s.advanceSequence).link q = s.link q := rfl
@[simp] theorem State.advanceSequence_rx (s : State) (q : Port) : (s.advanceSequence).rx q = s.rx q := rfl
@[simp] theorem State.advanceSequence_tx (s : State) (q : Port) : (s.advanceSequence).tx q = s.tx q := rfl
@[simp] theorem State.advanceSequence_queue (s : State) (q : Port) : (s.advanceSequence).queue q = s.queue q := rfl
@[simp] theorem State.advanceSequence_image (s : State) : (s.advanceSequence).image = s.image := rfl
@[simp] theorem State.advanceSequence_inService (s : State) : (s.advanceSequence).inService = s.inService := rfl
@[simp] theorem State.advanceSequence_now (s : State) : (s.advanceSequence).now = s.now := rfl

/-! ### setResult -/

@[simp] theorem State.setResult_pending (s : State) (t : TransferName) (r : Result) (f : Option Nat) :
    (s.setResult t r f).pending = s.pending := rfl
@[simp] theorem State.setResult_draws (s : State) (t : TransferName) (r : Result) (f : Option Nat) :
    (s.setResult t r f).draws = s.draws := rfl
@[simp] theorem State.setResult_resetHeld (s : State) (t : TransferName) (r : Result) (f : Option Nat) :
    (s.setResult t r f).resetHeld = s.resetHeld := rfl
@[simp] theorem State.setResult_li (s : State) (t : TransferName) (r : Result) (f : Option Nat) :
    (s.setResult t r f).li = s.li := rfl
@[simp] theorem State.setResult_tu (s : State) (t : TransferName) (r : Result) (f : Option Nat) :
    (s.setResult t r f).tu = s.tu := rfl
@[simp] theorem State.setResult_lm (s : State) (t : TransferName) (r : Result) (f : Option Nat) :
    (s.setResult t r f).lm = s.lm := rfl
@[simp] theorem State.setResult_rc (s : State) (t : TransferName) (r : Result) (f : Option Nat) :
    (s.setResult t r f).rc = s.rc := rfl
@[simp] theorem State.setResult_af (s : State) (t : TransferName) (r : Result) (f : Option Nat) :
    (s.setResult t r f).af = s.af := rfl
@[simp] theorem State.setResult_fe (s : State) (t : TransferName) (r : Result) (f : Option Nat) :
    (s.setResult t r f).fe = s.fe := rfl
@[simp] theorem State.setResult_lpc (s : State) (t : TransferName) (r : Result) (f : Option Nat) :
    (s.setResult t r f).lpc = s.lpc := rfl
@[simp] theorem State.setResult_slc (s : State) (t : TransferName) (r : Result) (f : Option Nat) :
    (s.setResult t r f).slc = { s.slc with last := ⟨some t, r, f⟩ } := rfl
@[simp] theorem State.setResult_snu (s : State) (t : TransferName) (r : Result) (f : Option Nat) :
    (s.setResult t r f).snu = s.snu := rfl
@[simp] theorem State.setResult_link (s : State) (t : TransferName) (r : Result) (f : Option Nat) (q : Port) :
    (s.setResult t r f).link q = s.link q := rfl
@[simp] theorem State.setResult_rx (s : State) (t : TransferName) (r : Result) (f : Option Nat) (q : Port) :
    (s.setResult t r f).rx q = s.rx q := rfl
@[simp] theorem State.setResult_tx (s : State) (t : TransferName) (r : Result) (f : Option Nat) (q : Port) :
    (s.setResult t r f).tx q = s.tx q := rfl
@[simp] theorem State.setResult_queue (s : State) (t : TransferName) (r : Result) (f : Option Nat) (q : Port) :
    (s.setResult t r f).queue q = s.queue q := rfl
@[simp] theorem State.setResult_image (s : State) (t : TransferName) (r : Result) (f : Option Nat) :
    (s.setResult t r f).image = s.image := rfl
@[simp] theorem State.setResult_inService (s : State) (t : TransferName) (r : Result) (f : Option Nat) :
    (s.setResult t r f).inService = s.inService := rfl
@[simp] theorem State.setResult_now (s : State) (t : TransferName) (r : Result) (f : Option Nat) :
    (s.setResult t r f).now = s.now := rfl

/-! ### accept -/

@[simp] theorem State.accept_pending (s : State) (c : Byte) : (s.accept c).pending = s.pending := rfl
@[simp] theorem State.accept_draws (s : State) (c : Byte) : (s.accept c).draws = s.draws := rfl
@[simp] theorem State.accept_resetHeld (s : State) (c : Byte) : (s.accept c).resetHeld = s.resetHeld := rfl
@[simp] theorem State.accept_li (s : State) (c : Byte) : (s.accept c).li = s.li := rfl
@[simp] theorem State.accept_tu (s : State) (c : Byte) : (s.accept c).tu = s.tu := rfl
@[simp] theorem State.accept_lm (s : State) (c : Byte) : (s.accept c).lm = s.lm := rfl
@[simp] theorem State.accept_rc (s : State) (c : Byte) : (s.accept c).rc = s.rc := rfl
@[simp] theorem State.accept_af (s : State) (c : Byte) : (s.accept c).af = s.af := rfl
@[simp] theorem State.accept_fe (s : State) (c : Byte) : (s.accept c).fe = s.fe := rfl
@[simp] theorem State.accept_lpc (s : State) (c : Byte) : (s.accept c).lpc = s.lpc := rfl
@[simp] theorem State.accept_slc (s : State) (c : Byte) :
    (s.accept c).slc = { s.slc with last := ⟨some ⟨0, c⟩, .accepted, none⟩ } := rfl
@[simp] theorem State.accept_snu (s : State) (c : Byte) : (s.accept c).snu = s.snu := rfl
@[simp] theorem State.accept_link (s : State) (c : Byte) (q : Port) : (s.accept c).link q = s.link q := rfl
@[simp] theorem State.accept_rx (s : State) (c : Byte) (q : Port) : (s.accept c).rx q = s.rx q := rfl
@[simp] theorem State.accept_tx (s : State) (c : Byte) (q : Port) : (s.accept c).tx q = s.tx q := rfl
@[simp] theorem State.accept_queue (s : State) (c : Byte) (q : Port) : (s.accept c).queue q = s.queue q := rfl
@[simp] theorem State.accept_image (s : State) (c : Byte) : (s.accept c).image = s.image := rfl
@[simp] theorem State.accept_inService (s : State) (c : Byte) : (s.accept c).inService = s.inService := rfl
@[simp] theorem State.accept_now (s : State) (c : Byte) : (s.accept c).now = s.now := rfl

/-! ### refuseOperand -/

@[simp] theorem State.refuseOperand_pending (s : State) (c : Byte) : (s.refuseOperand c).pending = s.pending := rfl
@[simp] theorem State.refuseOperand_draws (s : State) (c : Byte) : (s.refuseOperand c).draws = s.draws := rfl
@[simp] theorem State.refuseOperand_resetHeld (s : State) (c : Byte) :
    (s.refuseOperand c).resetHeld = s.resetHeld := rfl
@[simp] theorem State.refuseOperand_li (s : State) (c : Byte) : (s.refuseOperand c).li = s.li := rfl
@[simp] theorem State.refuseOperand_tu (s : State) (c : Byte) : (s.refuseOperand c).tu = s.tu := rfl
@[simp] theorem State.refuseOperand_lm (s : State) (c : Byte) : (s.refuseOperand c).lm = s.lm := rfl
@[simp] theorem State.refuseOperand_rc (s : State) (c : Byte) : (s.refuseOperand c).rc = s.rc := rfl
@[simp] theorem State.refuseOperand_af (s : State) (c : Byte) : (s.refuseOperand c).af = s.af := rfl
@[simp] theorem State.refuseOperand_fe (s : State) (c : Byte) : (s.refuseOperand c).fe = s.fe := rfl
@[simp] theorem State.refuseOperand_lpc (s : State) (c : Byte) : (s.refuseOperand c).lpc = s.lpc := rfl
@[simp] theorem State.refuseOperand_slc (s : State) (c : Byte) :
    (s.refuseOperand c).slc = { s.slc with last := ⟨some ⟨0, c⟩, .refusedOperand, none⟩ } := rfl
@[simp] theorem State.refuseOperand_snu (s : State) (c : Byte) : (s.refuseOperand c).snu = s.snu := rfl
@[simp] theorem State.refuseOperand_link (s : State) (c : Byte) (q : Port) :
    (s.refuseOperand c).link q = s.link q := rfl
@[simp] theorem State.refuseOperand_rx (s : State) (c : Byte) (q : Port) : (s.refuseOperand c).rx q = s.rx q := rfl
@[simp] theorem State.refuseOperand_tx (s : State) (c : Byte) (q : Port) : (s.refuseOperand c).tx q = s.tx q := rfl
@[simp] theorem State.refuseOperand_queue (s : State) (c : Byte) (q : Port) :
    (s.refuseOperand c).queue q = s.queue q := rfl
@[simp] theorem State.refuseOperand_image (s : State) (c : Byte) : (s.refuseOperand c).image = s.image := rfl
@[simp] theorem State.refuseOperand_inService (s : State) (c : Byte) :
    (s.refuseOperand c).inService = s.inService := rfl
@[simp] theorem State.refuseOperand_now (s : State) (c : Byte) : (s.refuseOperand c).now = s.now := rfl

/-! ### read -/

@[simp] theorem State.read_pending (s : State) (d : List Byte) (n : Nat) : (s.read d n).pending = s.pending := rfl
@[simp] theorem State.read_draws (s : State) (d : List Byte) (n : Nat) : (s.read d n).draws = s.draws := rfl
@[simp] theorem State.read_resetHeld (s : State) (d : List Byte) (n : Nat) :
    (s.read d n).resetHeld = s.resetHeld := rfl
@[simp] theorem State.read_li (s : State) (d : List Byte) (n : Nat) : (s.read d n).li = s.li := rfl
@[simp] theorem State.read_tu (s : State) (d : List Byte) (n : Nat) : (s.read d n).tu = s.tu := rfl
@[simp] theorem State.read_lm (s : State) (d : List Byte) (n : Nat) : (s.read d n).lm = s.lm := rfl
@[simp] theorem State.read_rc (s : State) (d : List Byte) (n : Nat) : (s.read d n).rc = s.rc := rfl
@[simp] theorem State.read_af (s : State) (d : List Byte) (n : Nat) : (s.read d n).af = s.af := rfl
@[simp] theorem State.read_fe (s : State) (d : List Byte) (n : Nat) : (s.read d n).fe = s.fe := rfl
@[simp] theorem State.read_lpc (s : State) (d : List Byte) (n : Nat) : (s.read d n).lpc = s.lpc := rfl
@[simp] theorem State.read_slc (s : State) (d : List Byte) (n : Nat) :
    (s.read d n).slc = { s.slc with snapshot := d, dataOut := shiftOut d n } := rfl
@[simp] theorem State.read_snu (s : State) (d : List Byte) (n : Nat) : (s.read d n).snu = s.snu := rfl
@[simp] theorem State.read_link (s : State) (d : List Byte) (n : Nat) (q : Port) :
    (s.read d n).link q = s.link q := rfl
@[simp] theorem State.read_rx (s : State) (d : List Byte) (n : Nat) (q : Port) : (s.read d n).rx q = s.rx q := rfl
@[simp] theorem State.read_tx (s : State) (d : List Byte) (n : Nat) (q : Port) : (s.read d n).tx q = s.tx q := rfl
@[simp] theorem State.read_queue (s : State) (d : List Byte) (n : Nat) (q : Port) :
    (s.read d n).queue q = s.queue q := rfl
@[simp] theorem State.read_image (s : State) (d : List Byte) (n : Nat) : (s.read d n).image = s.image := rfl
@[simp] theorem State.read_inService (s : State) (d : List Byte) (n : Nat) :
    (s.read d n).inService = s.inService := rfl
@[simp] theorem State.read_now (s : State) (d : List Byte) (n : Nat) : (s.read d n).now = s.now := rfl

/-! ### recompute -/

@[simp] theorem State.recompute_pending (s : State) : (s.recompute).pending = s.pending := rfl
@[simp] theorem State.recompute_draws (s : State) : (s.recompute).draws = s.draws := rfl
@[simp] theorem State.recompute_resetHeld (s : State) : (s.recompute).resetHeld = s.resetHeld := rfl
@[simp] theorem State.recompute_li (s : State) : (s.recompute).li = s.li := rfl
@[simp] theorem State.recompute_tu (s : State) : (s.recompute).tu = s.tu := rfl
@[simp] theorem State.recompute_lm (s : State) : (s.recompute).lm = s.lm := rfl
@[simp] theorem State.recompute_rc (s : State) : (s.recompute).rc = s.rc.recompute s.image s.lm := rfl
@[simp] theorem State.recompute_af (s : State) : (s.recompute).af = s.af := rfl
@[simp] theorem State.recompute_fe (s : State) : (s.recompute).fe = s.fe := rfl
@[simp] theorem State.recompute_lpc (s : State) : (s.recompute).lpc = s.lpc := rfl
@[simp] theorem State.recompute_slc (s : State) : (s.recompute).slc = s.slc := rfl
@[simp] theorem State.recompute_snu (s : State) :
    (s.recompute).snu = { s.snu with notices := s.rc.recomputeNotices s.image s.lm s.snu.notices } := rfl
@[simp] theorem State.recompute_link (s : State) (q : Port) : (s.recompute).link q = s.link q := rfl
@[simp] theorem State.recompute_rx (s : State) (q : Port) : (s.recompute).rx q = s.rx q := rfl
@[simp] theorem State.recompute_tx (s : State) (q : Port) : (s.recompute).tx q = s.tx q := rfl
@[simp] theorem State.recompute_queue (s : State) (q : Port) : (s.recompute).queue q = s.queue q := rfl
@[simp] theorem State.recompute_image (s : State) : (s.recompute).image = s.image := rfl
@[simp] theorem State.recompute_inService (s : State) : (s.recompute).inService = s.inService := rfl
@[simp] theorem State.recompute_now (s : State) : (s.recompute).now = s.now := rfl

/-! ### forgetCosts -/

@[simp] theorem State.forgetCosts_pending (s : State) (p : Port) : (s.forgetCosts p).pending = s.pending := rfl
@[simp] theorem State.forgetCosts_draws (s : State) (p : Port) : (s.forgetCosts p).draws = s.draws := rfl
@[simp] theorem State.forgetCosts_resetHeld (s : State) (p : Port) : (s.forgetCosts p).resetHeld = s.resetHeld := rfl
@[simp] theorem State.forgetCosts_li (s : State) (p : Port) : (s.forgetCosts p).li = s.li := rfl
@[simp] theorem State.forgetCosts_tu (s : State) (p : Port) : (s.forgetCosts p).tu = s.tu := rfl
@[simp] theorem State.forgetCosts_lm (s : State) (p : Port) : (s.forgetCosts p).lm = s.lm := rfl
@[simp] theorem State.forgetCosts_rc (s : State) (p : Port) : (s.forgetCosts p).rc = s.rc.forget p := rfl
@[simp] theorem State.forgetCosts_af (s : State) (p : Port) : (s.forgetCosts p).af = s.af := rfl
@[simp] theorem State.forgetCosts_fe (s : State) (p : Port) : (s.forgetCosts p).fe = s.fe := rfl
@[simp] theorem State.forgetCosts_lpc (s : State) (p : Port) : (s.forgetCosts p).lpc = s.lpc := rfl
@[simp] theorem State.forgetCosts_slc (s : State) (p : Port) : (s.forgetCosts p).slc = s.slc := rfl
@[simp] theorem State.forgetCosts_snu (s : State) (p : Port) : (s.forgetCosts p).snu = s.snu := rfl
@[simp] theorem State.forgetCosts_link (s : State) (p : Port) (q : Port) : (s.forgetCosts p).link q = s.link q := rfl
@[simp] theorem State.forgetCosts_rx (s : State) (p : Port) (q : Port) : (s.forgetCosts p).rx q = s.rx q := rfl
@[simp] theorem State.forgetCosts_tx (s : State) (p : Port) (q : Port) : (s.forgetCosts p).tx q = s.tx q := rfl
@[simp] theorem State.forgetCosts_queue (s : State) (p : Port) (q : Port) :
    (s.forgetCosts p).queue q = s.queue q := rfl
@[simp] theorem State.forgetCosts_image (s : State) (p : Port) : (s.forgetCosts p).image = s.image := rfl
@[simp] theorem State.forgetCosts_inService (s : State) (p : Port) : (s.forgetCosts p).inService = s.inService := rfl
@[simp] theorem State.forgetCosts_now (s : State) (p : Port) : (s.forgetCosts p).now = s.now := rfl

/-! ### drew -/

@[simp] theorem State.drew_pending (s : State) : (s.drew).pending = s.pending := rfl
@[simp] theorem State.drew_draws (s : State) : (s.drew).draws = s.draws + 1 := rfl
@[simp] theorem State.drew_resetHeld (s : State) : (s.drew).resetHeld = s.resetHeld := rfl
@[simp] theorem State.drew_li (s : State) : (s.drew).li = s.li := rfl
@[simp] theorem State.drew_tu (s : State) : (s.drew).tu = s.tu := rfl
@[simp] theorem State.drew_lm (s : State) : (s.drew).lm = s.lm := rfl
@[simp] theorem State.drew_rc (s : State) : (s.drew).rc = s.rc := rfl
@[simp] theorem State.drew_af (s : State) : (s.drew).af = s.af := rfl
@[simp] theorem State.drew_fe (s : State) : (s.drew).fe = s.fe := rfl
@[simp] theorem State.drew_lpc (s : State) : (s.drew).lpc = s.lpc := rfl
@[simp] theorem State.drew_slc (s : State) : (s.drew).slc = s.slc := rfl
@[simp] theorem State.drew_snu (s : State) : (s.drew).snu = s.snu := rfl
@[simp] theorem State.drew_link (s : State) (q : Port) : (s.drew).link q = s.link q := rfl
@[simp] theorem State.drew_rx (s : State) (q : Port) : (s.drew).rx q = s.rx q := rfl
@[simp] theorem State.drew_tx (s : State) (q : Port) : (s.drew).tx q = s.tx q := rfl
@[simp] theorem State.drew_queue (s : State) (q : Port) : (s.drew).queue q = s.queue q := rfl
@[simp] theorem State.drew_image (s : State) : (s.drew).image = s.image := rfl
@[simp] theorem State.drew_inService (s : State) : (s.drew).inService = s.inService := rfl
@[simp] theorem State.drew_now (s : State) : (s.drew).now = s.now := rfl

/-! ### adjustTime and clearFadeTime -/

/-- What a time command does to the state: nothing while the reset pin holds station time (R23), else it changes the
Time Unit alone. -/
theorem State.adjustTime_cases (s : State) (f : TimeUnit → TimeUnit) :
    (s.resetHeld = true ∧ s.adjustTime f = s) ∨ (s.resetHeld = false ∧ s.adjustTime f = { s with tu := f s.tu }) := by
  cases h : s.resetHeld <;> simp [State.adjustTime, h]

@[simp] theorem LinkRecord.clearFadeTime_state (r : LinkRecord) : r.clearFadeTime.state = r.state := rfl

/-- Less than a whole microsecond is cleared to 0; a whole one that waits for its accrual is kept. -/
theorem LinkRecord.clearFadeTime_remainder {r : LinkRecord} (h : r.fadeRemainder ≤ 1000) :
    r.clearFadeTime = { r with fadeRemainder := if r.fadeRemainder = 1000 then 1000 else 0 } := by
  simp only [LinkRecord.clearFadeTime, fadeUnit]
  split
  · next e => rw [e]
  · next e => rw [Nat.mod_eq_of_lt (by omega), Nat.sub_self]

end Sys2Proof.Machine
end

