-- ==== Sys2Proof/Laws/Pool.lean ====
section
/-! SUPPORT. The Buffer Pool: every operation keeps its canonical form, and what each buffer reads as after each
operation (R115 to R117). -/

namespace Sys2Proof.Machine

/-! ### Changing one buffer -/

theorem Forwarding.update_wf {f : Forwarding} (hf : f.wf) (i : Nat) (h : Buffer → Buffer)
    (hid : ∀ b, (h b).id = b.id) (hrefs : ∀ b, 1 ≤ b.refs → 1 ≤ (h b).refs) : (f.update i h).wf := by
  obtain ⟨hp, hb⟩ := hf
  refine ⟨?_, ?_⟩
  · simp only [Forwarding.update, List.pairwise_map]
    refine hp.imp ?_
    intro a b hab
    have ha : (if a.id = i then h a else a).id = a.id := by split <;> simp [hid]
    have hb' : (if b.id = i then h b else b).id = b.id := by split <;> simp [hid]
    rw [ha, hb']; exact hab
  · intro b hm
    simp only [Forwarding.update, List.mem_map] at hm
    obtain ⟨a, ha, rfl⟩ := hm
    obtain ⟨h1, h2⟩ := hb a ha
    split
    · exact ⟨by rw [hid]; exact h1, hrefs a h2⟩
    · exact ⟨h1, h2⟩

theorem Forwarding.update_buffer?_self (f : Forwarding) (i : Nat) (h : Buffer → Buffer)
    (hid : ∀ b, (h b).id = b.id) : (f.update i h).buffer? i = (f.buffer? i).map h := by
  obtain ⟨pool, _⟩ := f
  simp only [Forwarding.update, Forwarding.buffer?]
  induction pool with
  | nil => rfl
  | cons b bs ih =>
    by_cases hb : b.id = i
    · simp [hb, hid]
    · simp [hb, ih]

theorem Forwarding.update_buffer?_of_ne (f : Forwarding) {i j : Nat} (h : Buffer → Buffer) (hij : j ≠ i)
    (hid : ∀ b, (h b).id = b.id) : (f.update i h).buffer? j = f.buffer? j := by
  obtain ⟨pool, _⟩ := f
  simp only [Forwarding.update, Forwarding.buffer?]
  induction pool with
  | nil => rfl
  | cons b bs ih =>
    by_cases hb : b.id = i
    · have hbj : ¬ b.id = j := fun e => hij (e.symm.trans hb)
      simp [hb, hid, ih, Ne.symm hij]
    · by_cases hbj : b.id = j
      · simp [hbj, hij]
      · simp [hb, hbj, ih]

/-! ### Granting -/

/-- The first free number from `n` on is at least `n`, is no number in use, and lies within the pool's length. -/
theorem firstFree_spec (l : List Buffer) :
    ∀ n, l.Pairwise (fun a b => a.id < b.id) → (∀ b ∈ l, n ≤ b.id) →
      n ≤ firstFree n l ∧ firstFree n l ≤ n + l.length ∧ ∀ b ∈ l, b.id ≠ firstFree n l := by
  induction l with
  | nil => intro n _ _; simp [firstFree]
  | cons b bs ih =>
    intro n hp hn
    rw [List.pairwise_cons] at hp
    by_cases hb : b.id = n
    · have hbs : ∀ c ∈ bs, n + 1 ≤ c.id := fun c hc => by have := hp.1 c hc; omega
      obtain ⟨h1, h2, h3⟩ := ih (n + 1) hp.2 hbs
      simp only [firstFree, hb, if_true, List.length_cons]
      refine ⟨by omega, by omega, ?_⟩
      intro c hc
      rcases List.mem_cons.mp hc with rfl | hc
      · omega
      · exact h3 c hc
    · simp only [firstFree, hb, if_false, List.length_cons]
      refine ⟨le_refl _, by omega, ?_⟩
      intro c hc
      have hbn := hn b (by simp)
      rcases List.mem_cons.mp hc with rfl | hc
      · exact hb
      · have := hp.1 c hc; omega

theorem mem_insertBuffer (b c : Buffer) (l : List Buffer) : c ∈ insertBuffer b l ↔ c = b ∨ c ∈ l := by
  induction l with
  | nil => simp [insertBuffer]
  | cons x xs ih =>
    simp only [insertBuffer]
    split
    · simp
    · simp only [List.mem_cons, ih]; tauto

theorem insertBuffer_rising (b : Buffer) (l : List Buffer) (hl : l.Pairwise (fun a b => a.id < b.id))
    (hb : ∀ c ∈ l, c.id ≠ b.id) : (insertBuffer b l).Pairwise (fun a b => a.id < b.id) := by
  induction l with
  | nil => simp [insertBuffer]
  | cons x xs ih =>
    rw [List.pairwise_cons] at hl
    have hx := hb x (by simp)
    simp only [insertBuffer]
    split
    · rename_i hlt
      rw [List.pairwise_cons]
      refine ⟨?_, List.pairwise_cons.mpr hl⟩
      intro c hc
      rcases List.mem_cons.mp hc with rfl | hc
      · exact hlt
      · have := hl.1 c hc; omega
    · rename_i hlt
      rw [List.pairwise_cons]
      refine ⟨?_, ih hl.2 (fun c hc => hb c (by simp [hc]))⟩
      intro c hc
      rcases (mem_insertBuffer b c xs).mp hc with rfl | hc
      · omega
      · exact hl.1 c hc

/-- Everything a grant can do: none exactly when the pool is empty; else a number that was free, whose buffer holds the
one reference of its requester, the pool keeping its form (R116, R117). -/
theorem Forwarding.grant_spec {f : Forwarding} (hf : f.wf) (stamp : Stamp) (arrival : Origin) (h : RouteHeader)
    (payload : List Byte) :
    (f.grant stamp arrival h payload = none ↔ Config.poolSize ≤ f.pool.length) ∧
    ∀ i f', f.grant stamp arrival h payload = some (i, f') →
      (∀ b ∈ f.pool, b.id ≠ i) ∧ i < Config.poolSize ∧ f'.wf ∧ f'.queues = f.queues
      ∧ f'.pool.length = f.pool.length + 1
      ∧ ∀ c, c ∈ f'.pool ↔ c = ⟨i, h, payload, stamp, arrival, arrival.usedPorts, 1⟩ ∨ c ∈ f.pool := by
  obtain ⟨hp, hb⟩ := hf
  refine ⟨?_, ?_⟩
  · simp only [Forwarding.grant]; split <;> simp <;> omega
  · intro i f' hg
    simp only [Forwarding.grant] at hg
    split at hg
    · rename_i hroom
      simp only [Option.some.injEq, Prod.mk.injEq] at hg
      obtain ⟨rfl, rfl⟩ := hg
      obtain ⟨-, h2, h3⟩ := firstFree_spec f.pool 0 hp (fun b _ => Nat.zero_le _)
      refine ⟨h3, by omega, ⟨?_, ?_⟩, rfl, ?_, fun c => mem_insertBuffer _ _ _⟩
      · exact insertBuffer_rising _ _ hp h3
      · intro c hc
        rcases (mem_insertBuffer _ c _).mp hc with rfl | hc
        · exact ⟨by simp only; omega, le_refl _⟩
        · exact hb c hc
      · have : ∀ (b : Buffer) (l : List Buffer), (insertBuffer b l).length = l.length + 1 := by
          intro b l
          induction l with
          | nil => rfl
          | cons x xs ih => simp only [insertBuffer]; split <;> simp [ih]
        exact this _ _
    · simp at hg

/-! ### Releasing -/

theorem releaseBuffer_some {b c : Buffer} (h : releaseBuffer b = some c) : c.id = b.id ∧ 1 ≤ c.refs := by
  simp only [releaseBuffer] at h
  split at h
  · simp at h
  · simp only [Option.some.injEq] at h
    subst h
    exact ⟨rfl, by simp only; omega⟩

theorem Forwarding.release_wf {f : Forwarding} (hf : f.wf) (i : Nat) : (f.release i).wf := by
  obtain ⟨hp, hb⟩ := hf
  have key : ∀ a c : Buffer, (if a.id = i then releaseBuffer a else some a) = some c → c.id = a.id := by
    intro a c h
    split at h
    · exact (releaseBuffer_some h).1
    · simp only [Option.some.injEq] at h; rw [h]
  refine ⟨?_, ?_⟩
  · simp only [Forwarding.release, List.pairwise_filterMap]
    refine hp.imp ?_
    intro a b hab c hc d hd
    rw [key a c hc, key b d hd]; exact hab
  · intro c hm
    simp only [Forwarding.release, List.mem_filterMap] at hm
    obtain ⟨a, ha, hac⟩ := hm
    obtain ⟨h1, h2⟩ := hb a ha
    refine ⟨by rw [key a c hac]; exact h1, ?_⟩
    split at hac
    · exact (releaseBuffer_some hac).2
    · simp only [Option.some.injEq] at hac; rw [← hac]; exact h2

theorem Forwarding.release_buffer?_of_ne (f : Forwarding) {i j : Nat} (hij : j ≠ i) :
    (f.release i).buffer? j = f.buffer? j := by
  obtain ⟨pool, _⟩ := f
  simp only [Forwarding.release, Forwarding.buffer?]
  induction pool with
  | nil => rfl
  | cons b bs ih =>
    by_cases hb : b.id = i
    · have hbj : ¬ b.id = j := fun e => hij (e.symm.trans hb)
      cases hr : releaseBuffer b with
      | none => simp [hb, hr, ih, Ne.symm hij]
      | some c =>
        have hc : ¬ c.id = j := by rw [(releaseBuffer_some hr).1]; exact hbj
        simp [hb, hr, hc, ih, Ne.symm hij]
    · by_cases hbj : b.id = j
      · simp [hbj, hij]
      · simp [hb, hbj, ih]

/-- A buffer after the release of one of its references: gone with its last, one fewer otherwise (R116). -/
theorem Forwarding.release_buffer?_self {f : Forwarding} (hf : f.wf) (i : Nat) :
    (f.release i).buffer? i = (f.buffer? i).bind releaseBuffer := by
  obtain ⟨hp, -⟩ := hf
  obtain ⟨pool, _⟩ := f
  simp only [Forwarding.release, Forwarding.buffer?] at hp ⊢
  induction pool with
  | nil => rfl
  | cons b bs ih =>
    rw [List.pairwise_cons] at hp
    by_cases hb : b.id = i
    · cases hr : releaseBuffer b with
      | some c =>
        have hc := (releaseBuffer_some hr).1
        simp [hb, hr, hc]
      | none =>
        simp only [List.filterMap_cons, hb, if_true, hr, List.find?_cons, decide_true, Option.bind_some]
        rw [List.find?_eq_none]
        intro c hc
        rw [List.mem_filterMap] at hc
        obtain ⟨a, ha, hac⟩ := hc
        have hai := hp.1 a ha
        have : ¬ a.id = i := by omega
        simp only [this, if_false, Option.some.injEq] at hac
        subst hac
        simpa using this
    · simp [hb, ih hp.2]

theorem State.releaseAll_wf (l : List Nat) : ∀ {s : State}, s.fe.wf → (s.releaseAll l).fe.wf := by
  induction l with
  | nil => intro s h; exact h
  | cons i l ih => intro s h; exact ih (s := s.release i) (Forwarding.release_wf h i)

end Sys2Proof.Machine
end

