-- ==== Sys2Proof/Laws/Selection.lean ====
section
/-! SUPPORT. Selection, placement, flush and delivery starts, each with its one rule of induction: a property that the
few primitive changes keep, the whole operation keeps. And what egress work and local work leave unchanged. -/

namespace Sys2Proof.Machine

/-! ### Rules of induction -/

/-- Selection keeps whatever a HAIL departure, the removal of an entry (orphaned or too old) and a traffic departure
keep (R127). -/
theorem select_induct {P : State → Prop} {p : Port}
    (hail : ∀ s, P s → s.tx p = .idle → (s.link p).hailDue = true → P (s.departHail p))
    (orphan : ∀ s i q, P s → (s.queue p).pop? = some (i, q) → s.fe.buffer? i = none → P (s.setQueue p q))
    (old : ∀ s i q b, P s → (s.queue p).pop? = some (i, q) → s.fe.buffer? i = some b →
      P (((s.setQueue p q).release i).count (.port p .ageDrop)))
    (send : ∀ s i q b, P s → s.tx p = .idle → (s.queue p).pop? = some (i, q) → s.fe.buffer? i = some b →
      b.age s.now ≤ s.image.ageNs → P ((s.setQueue p q).departTraffic p b))
    {s : State} (h : P s) : P (s.select p) := by
  have key : ∀ fuel s, P s → s.tx p = .idle → P (selectFrom fuel s p) := by
    intro fuel
    induction fuel with
    | zero => intro s h _; exact h
    | succ n ih =>
      intro s h ht
      simp only [selectFrom]
      split
      · exact hail s h ht (by assumption)
      · split
        · exact h
        · rename_i i q hq
          split
          · rename_i hb
            exact ih _ (orphan s i q h hq hb) ht
          · rename_i b hb
            split
            · exact ih _ (old s i q b h hq hb) ht
            · exact send s i q b h ht hq hb (by rename_i hn; simpa using hn)
  simp only [State.select]
  split
  · exact key _ s h (by assumption)
  · exact h

/-- A copy joined to a queue: the reference, the used port and the entry of R125, before the port selects. -/
def State.joined (s : State) (i : Nat) (u : Urgency) (p : Port) : State :=
  let s1 := { s with fe := s.fe.update i (fun b => { b with refs := b.refs + 1, used := b.used.set p true }) }
  s1.setQueue p ((s1.queue p).push u i)

/-- Placing copies keeps whatever one joining of a copy, one drop and one selection keep (R125). -/
theorem placeCopies_induct {P : State → Prop} {i : Nat} {u : Urgency}
    (join : ∀ s p, P s → (s.queue p).size < Config.egressLimit → P (s.joined i u p))
    (drop : ∀ s p, P s → P (s.count (.port p .queueDrop)))
    (sel : ∀ s p, P s → P (s.select p)) :
    ∀ (ports : List Port) (s : State), P s → P (placeCopies i u ports s).1 := by
  intro ports
  induction ports with
  | nil => intro s h; exact h
  | cons p ps ih =>
    intro s h
    simp only [placeCopies]
    refine ih _ ?_
    simp only [State.place]
    split
    · exact sel _ p (join s p h (by assumption))
    · exact drop s p h

/-- A re-aimed entry joined to its new queue, before that port selects (R130). -/
def State.rejoined (s : State) (i : Nat) (u : Urgency) (r : Port) : State :=
  let s1 := { s with fe := s.fe.update i (fun b => { b with used := b.used.set r true }) }
  s1.setQueue r ((s1.queue r).push u i)

/-- Everything the processing of one entry can do (R129, R130). -/
theorem flushEntry_cases (p : Port) (s : State) (e : Urgency × Nat) :
    State.flushEntry p s e = s
    ∨ (∃ b, s.fe.buffer? e.2 = some b ∧ ∃ c : CounterName, State.flushEntry p s e = (s.release b.id).count c)
    ∨ ∃ b r, s.fe.buffer? e.2 = some b ∧ s.reaimPort b = some r ∧ (s.queue r).size < Config.egressLimit
        ∧ State.flushEntry p s e = ((s.rejoined b.id e.1 r).count (.port p .reaimed)).select r := by
  simp only [State.flushEntry]
  split
  · exact .inl rfl
  · rename_i b hb
    cases b.header.kind with
    | flood => exact .inr (.inl ⟨b, hb, .port p .flushed, rfl⟩)
    | aimed =>
      cases hr : s.reaimPort b with
      | none => exact .inr (.inl ⟨b, hb, .port p .flushed, rfl⟩)
      | some r =>
        by_cases hroom : (s.queue r).size < Config.egressLimit
        · refine .inr (.inr ⟨b, r, hb, hr, hroom, ?_⟩)
          simp only [hroom, if_true]
          rfl
        · refine .inr (.inl ⟨b, hb, .port r .queueDrop, ?_⟩)
          simp only [hroom, if_false]

/-- The processing of a queue keeps whatever each entry's processing keeps (R129). -/
theorem flush_induct {P : State → Prop} {p : Port}
    (entry : ∀ s e, P s → P (State.flushEntry p s e)) {s : State} (h : P (s.setQueue p .empty)) :
    P (s.flush p) := by
  simp only [State.flush]
  generalize (s.queue p).entries = l
  generalize s.setQueue p .empty = t at h
  induction l generalizing t with
  | nil => exact h
  | cons e l ih => exact ih _ (entry t e h)

/-- Delivery starts keep whatever the removal of a head (orphaned or too old) and the start itself keep (R143). -/
theorem tryDeliver_induct {P : State → Prop}
    (orphan : ∀ s i l, P s → s.lpc.queue = i :: l → s.fe.buffer? i = none → P (s.setDeliveries l))
    (old : ∀ s i l b, P s → s.lpc.queue = i :: l → s.fe.buffer? i = some b →
      P (((s.setDeliveries l).release i).count (.station .deliveryDrop)))
    (start : ∀ s i l b, P s → s.lpc.queue = i :: l → s.fe.buffer? i = some b → b.age s.now ≤ s.image.ageNs →
      P { s with lpc := { s.lpc with delivering := some (b.record s.now) } })
    {s : State} (h : P s) : P s.tryDeliver := by
  have key : ∀ fuel s, P s → P (deliverFrom fuel s) := by
    intro fuel
    induction fuel with
    | zero => intro s h; exact h
    | succ n ih =>
      intro s h
      simp only [deliverFrom]
      split
      · exact h
      · rename_i i l hq
        split
        · rename_i hb
          exact ih _ (orphan s i l h hq hb)
        · rename_i b hb
          split
          · exact ih _ (old s i l b h hq hb)
          · exact start s i l b h hq hb (by rename_i hn; simpa using hn)
  simp only [State.tryDeliver]
  split
  · exact key _ s h
  · exact h

/-! ### What egress work leaves unchanged -/

/-- What selection, placement and flush leave unchanged. -/
structure EgressWork (s t : State) : Prop where
  pending   : t.pending = s.pending
  draws     : t.draws = s.draws
  resetHeld : t.resetHeld = s.resetHeld
  tu  : t.tu = s.tu
  rc  : t.rc = s.rc
  af  : t.af = s.af
  lpc : t.lpc = s.lpc
  slc : t.slc = s.slc
  rx  : ∀ p, t.rx p = s.rx p
  link : ∀ p, (t.link p).hailedFrom (s.link p)

theorem LinkRecord.hailedFrom_refl (r : LinkRecord) : r.hailedFrom r := ⟨rfl, fun _ => rfl⟩

theorem LinkRecord.hailedFrom_trans {a b c : LinkRecord} (h1 : b.hailedFrom a) (h2 : c.hailedFrom b) :
    c.hailedFrom a := by
  obtain ⟨e1, f1⟩ := h1
  obtain ⟨e2, f2⟩ := h2
  refine ⟨?_, ?_⟩
  · rw [e1] at e2; simpa using e2
  · intro h
    have hb := f1 h
    subst hb
    exact f2 h

theorem EgressWork.refl (s : State) : EgressWork s s :=
  ⟨rfl, rfl, rfl, rfl, rfl, rfl, rfl, rfl, fun _ => rfl, fun _ => LinkRecord.hailedFrom_refl _⟩

theorem EgressWork.trans {s t u : State} (h1 : EgressWork s t) (h2 : EgressWork t u) : EgressWork s u :=
  ⟨h2.pending.trans h1.pending, h2.draws.trans h1.draws, h2.resetHeld.trans h1.resetHeld, h2.tu.trans h1.tu,
   h2.rc.trans h1.rc, h2.af.trans h1.af, h2.lpc.trans h1.lpc, h2.slc.trans h1.slc,
   fun p => (h2.rx p).trans (h1.rx p), fun p => LinkRecord.hailedFrom_trans (h1.link p) (h2.link p)⟩

/-- Egress work that touches only the Forwarding Engine and the counters. -/
theorem EgressWork.of_engine (s : State) (fe : Forwarding) (snu : Statistics) :
    EgressWork s { s with fe := fe, snu := snu } :=
  ⟨rfl, rfl, rfl, rfl, rfl, rfl, rfl, rfl, fun _ => rfl, fun _ => LinkRecord.hailedFrom_refl _⟩

theorem EgressWork.departHail (s : State) (p : Port) (h : (s.link p).hailDue = true) :
    EgressWork s (s.departHail p) := by
  refine ⟨rfl, rfl, rfl, rfl, rfl, rfl, rfl, rfl, fun q => ?_, fun q => ?_⟩
  · simp [State.departHail]
  · by_cases hq : q = p
    · subst hq
      simp only [State.departHail, State.setLink_link_self]
      exact ⟨rfl, fun h' => by simp [h] at h'⟩
    · simp only [State.departHail, State.setLink_link_of_ne _ _ hq, State.setTx_link]
      exact LinkRecord.hailedFrom_refl _

theorem EgressWork.departTraffic (s : State) (p : Port) (b : Buffer) : EgressWork s (s.departTraffic p b) :=
  ⟨rfl, rfl, rfl, rfl, rfl, rfl, rfl, rfl, fun q => by simp [State.departTraffic],
   fun _ => LinkRecord.hailedFrom_refl _⟩

theorem EgressWork.select (s : State) (p : Port) : EgressWork s (s.select p) :=
  select_induct (P := EgressWork s)
    (fun _ h _ hd => h.trans (.departHail _ p hd))
    (fun _ _ _ h _ _ => h.trans (.of_engine _ _ _))
    (fun _ _ _ _ h _ _ => h.trans (.of_engine _ _ _))
    (fun s' _ q b h _ _ _ _ => h.trans ((EgressWork.of_engine s' _ s'.snu).trans (.departTraffic (s'.setQueue p q) p b)))
    (.refl s)

theorem EgressWork.placeCopies (i : Nat) (u : Urgency) (ports : List Port) (s : State) :
    EgressWork s (placeCopies i u ports s).1 :=
  placeCopies_induct (P := EgressWork s)
    (fun _ _ h _ => h.trans (.of_engine _ _ _))
    (fun _ _ h => h.trans (.of_engine _ _ _))
    (fun _ p h => h.trans (.select _ p)) ports s (.refl s)

theorem EgressWork.flushEntry (p : Port) (s : State) (e : Urgency × Nat) :
    EgressWork s (State.flushEntry p s e) := by
  rcases flushEntry_cases p s e with h | ⟨b, -, c, h⟩ | ⟨b, r, -, -, -, h⟩ <;> rw [h]
  · exact .refl s
  · exact .of_engine _ _ _
  · exact (EgressWork.of_engine s _ _).trans (.select _ r)

theorem EgressWork.flush (s : State) (p : Port) : EgressWork s (s.flush p) :=
  flush_induct (P := EgressWork s) (fun _ e h => h.trans (.flushEntry p _ e)) (.of_engine _ _ _)

/-! ### What the local path leaves unchanged -/

/-- What a delivery start, and the drops before it, leave unchanged. -/
structure DeliveryWork (s t : State) : Prop where
  pending   : t.pending = s.pending
  draws     : t.draws = s.draws
  resetHeld : t.resetHeld = s.resetHeld
  li  : t.li = s.li
  tu  : t.tu = s.tu
  lm  : t.lm = s.lm
  rc  : t.rc = s.rc
  af  : t.af = s.af
  slc : t.slc = s.slc
  queue : ∀ p, t.queue p = s.queue p
  nextSequence : t.lpc.nextSequence = s.lpc.nextSequence
  reply : t.lpc.reply = s.lpc.reply
  replySending : t.lpc.replySending = s.lpc.replySending
  request : t.lpc.request = s.lpc.request
  deliveryReady : t.lpc.deliveryReady = s.lpc.deliveryReady
  outwardEnd : t.lpc.outwardEnd = s.lpc.outwardEnd

theorem DeliveryWork.refl (s : State) : DeliveryWork s s :=
  ⟨rfl, rfl, rfl, rfl, rfl, rfl, rfl, rfl, rfl, fun _ => rfl, rfl, rfl, rfl, rfl, rfl, rfl⟩

theorem DeliveryWork.trans {s t u : State} (h1 : DeliveryWork s t) (h2 : DeliveryWork t u) : DeliveryWork s u :=
  ⟨h2.pending.trans h1.pending, h2.draws.trans h1.draws, h2.resetHeld.trans h1.resetHeld, h2.li.trans h1.li,
   h2.tu.trans h1.tu, h2.lm.trans h1.lm, h2.rc.trans h1.rc, h2.af.trans h1.af, h2.slc.trans h1.slc,
   fun p => (h2.queue p).trans (h1.queue p), h2.nextSequence.trans h1.nextSequence, h2.reply.trans h1.reply,
   h2.replySending.trans h1.replySending, h2.request.trans h1.request, h2.deliveryReady.trans h1.deliveryReady,
   h2.outwardEnd.trans h1.outwardEnd⟩

theorem DeliveryWork.setDeliveries (s : State) (l : List Nat) : DeliveryWork s (s.setDeliveries l) :=
  ⟨rfl, rfl, rfl, rfl, rfl, rfl, rfl, rfl, rfl, fun _ => rfl, rfl, rfl, rfl, rfl, rfl, rfl⟩

theorem DeliveryWork.release_count (s : State) (i : Nat) (c : CounterName) :
    DeliveryWork s ((s.release i).count c) :=
  ⟨rfl, rfl, rfl, rfl, rfl, rfl, rfl, rfl, rfl, fun _ => rfl, rfl, rfl, rfl, rfl, rfl, rfl⟩

theorem DeliveryWork.tryDeliver (s : State) : DeliveryWork s s.tryDeliver :=
  tryDeliver_induct (P := DeliveryWork s)
    (fun _ _ _ h _ _ => h.trans (.setDeliveries _ _))
    (fun s' _ l _ h _ _ => h.trans ((DeliveryWork.setDeliveries s' l).trans (.release_count _ _ _)))
    (fun _ _ _ _ h _ _ _ =>
      h.trans ⟨rfl, rfl, rfl, rfl, rfl, rfl, rfl, rfl, rfl, fun _ => rfl, rfl, rfl, rfl, rfl, rfl, rfl⟩)
    (.refl s)

theorem DeliveryWork.placeLocal (s : State) (i : Nat) : DeliveryWork s (s.placeLocal i) := by
  simp only [State.placeLocal]
  split
  · refine DeliveryWork.trans (t := { s with fe := s.fe.update i (fun b => { b with refs := b.refs + 1 }) }) ?_ ?_
    · exact ⟨rfl, rfl, rfl, rfl, rfl, rfl, rfl, rfl, rfl, fun _ => rfl, rfl, rfl, rfl, rfl, rfl, rfl⟩
    · exact (DeliveryWork.setDeliveries _ _).trans (.tryDeliver _)
  · exact ⟨rfl, rfl, rfl, rfl, rfl, rfl, rfl, rfl, rfl, fun _ => rfl, rfl, rfl, rfl, rfl, rfl, rfl⟩

end Sys2Proof.Machine
end

