-- ==== Sys2Proof/Laws/Links.lean ====
section
/-! SUPPORT. The Link Monitor's operations: what one evaluation can do, and what each event of a port leaves unchanged
in the rest of the state. -/

namespace Sys2Proof.Machine

/-! ### One link record -/

/-- The fields that the link state machine never touches. -/
structure LinkRecord.SameHop (r r' : LinkRecord) : Prop where
  enabled        : r'.enabled = r.enabled
  neighbour      : r'.neighbour = r.neighbour
  neighbourRole  : r'.neighbourRole = r.neighbourRole
  neighbourState : r'.neighbourState = r.neighbourState
  hailDue        : r'.hailDue = r.hailDue
  lastSent       : r'.lastSent = r.lastSent
  lastHail       : r'.lastHail = r.lastHail
  hailTimer      : r'.hailTimer = r.hailTimer
  silence        : r'.silence = r.silence
  delay          : r'.delay = r.delay
  outlierRun     : r'.outlierRun = r.outlierRun
  far            : r'.far = r.far
  profile        : r'.profile = r.profile
  near           : r'.near = r.near
  fadeRemainder  : r'.fadeRemainder = r.fadeRemainder

theorem LinkRecord.SameHop.refl (r : LinkRecord) : r.SameHop r := by constructor <;> rfl

theorem LinkRecord.change_sameHop (r : LinkRecord) (now : Time) (x : LinkState) (c : Option FadeCause)
    (t : Option StateTimer) : r.SameHop (r.change now x c t) := by constructor <;> rfl

/-- Everything an evaluation can do: nothing, or one of the changes of R67 to R73. -/
theorem LinkRecord.evaluate_cases (r : LinkRecord) (g : Image) (now : Time) (timer : Bool) :
    r.evaluate g now timer = r
    ∨ (r.state = .seeking ∧ r.neighbour.isSome = true ∧ r.delay.isSome = true ∧ r.atLeast g.restoreLevel = true
        ∧ r.partnerDrained = false ∧ r.evaluate g now timer = r.enterUsable g now)
    ∨ ((r.state.usable = true ∨ r.state = .hold ∨ r.state = .trial) ∧ r.partnerDrained = true
        ∧ r.evaluate g now timer = r.change now .seeking none none)
    ∨ (r.state.usable = true ∧ r.below g.fadeLevel = true
        ∧ r.evaluate g now timer = r.change now .faded (some .rain) none)
    ∨ (r.state = .clear ∧ r.below g.fadeLevel = false ∧ r.below g.degradeLevel = true
        ∧ r.evaluate g now timer = r.change now .degraded none r.stateTimer)
    ∨ (r.state = .degraded ∧ r.atLeast (g.degradeLevel + g.hysteresisLevel) = true
        ∧ r.evaluate g now timer = r.change now .clear none r.stateTimer)
    ∨ (r.state = .faded ∧ r.silence.isSome = true ∧ r.atLeast g.restoreLevel = true
        ∧ r.evaluate g now timer
          = r.change now .hold none (some ⟨.hold, now, r.holdDuration.getD 0 * 1000000⟩))
    ∨ ((r.state = .hold ∨ r.state = .trial) ∧ r.below g.restoreLevel = true
        ∧ r.evaluate g now timer = r.fail g now)
    ∨ (r.state = .hold ∧ timer = true ∧ r.below g.restoreLevel = false
        ∧ r.evaluate g now timer = r.change now .trial none (some ⟨.trial, now, g.trialNs⟩))
    ∨ (r.state = .trial ∧ timer = true ∧ r.below g.restoreLevel = false
        ∧ r.evaluate g now timer = r.enterUsable g now) := by
  simp only [LinkRecord.evaluate]
  cases hs : r.state <;> simp only [LinkState.usable] <;> (try split) <;> (try split) <;> (try split) <;>
    simp_all

theorem LinkRecord.evaluate_sameHop (r : LinkRecord) (g : Image) (now : Time) (timer : Bool) :
    r.SameHop (r.evaluate g now timer) := by
  rcases r.evaluate_cases g now timer with h | ⟨-, -, -, -, -, h⟩ | ⟨-, -, h⟩ | ⟨-, -, h⟩ | ⟨-, -, -, h⟩ | ⟨-, -, h⟩ |
    ⟨-, -, -, h⟩ | ⟨-, -, h⟩ | ⟨-, -, -, h⟩ | ⟨-, -, -, h⟩ <;> rw [h] <;>
    first | exact .refl r | exact r.change_sameHop _ _ _ _ | (constructor <;> rfl)

/-- A delay sample changes P and the outlier run alone (R54 to R57). -/
theorem LinkRecord.sample_frame (r : LinkRecord) (g : Image) (a : Time) (h : Hail) :
    (r.sample g a h).1 = { r with delay := (r.sample g a h).1.delay, outlierRun := (r.sample g a h).1.outlierRun } := by
  simp only [LinkRecord.sample, LinkRecord.filter]
  repeat' split
  all_goals rfl

/-- What a HAIL taken from the recorded neighbour leaves in the record (R50). -/
theorem LinkRecord.take_frame (r : LinkRecord) (g : Image) (fibre : Bool) (now a : Time) (h : Hail) :
    (r.take g fibre now a h).1 =
      { r with silence := some now, neighbourRole := some h.senderRole, neighbourState := some h.senderState,
               far := if fibre then r.far else some h.farMargin, lastHail := some ⟨h.sequence, h.departure, a⟩,
               delay := (r.take g fibre now a h).1.delay, outlierRun := (r.take g fibre now a h).1.outlierRun } := by
  simp only [LinkRecord.take]
  rw [LinkRecord.sample_frame]

/-! ### What an event of the Link Monitor leaves unchanged -/

/-- What the Link Monitor's events on the ports leave unchanged. -/
structure LineWork (s t : State) : Prop where
  pending   : t.pending = s.pending
  draws     : t.draws = s.draws
  resetHeld : t.resetHeld = s.resetHeld
  tu  : t.tu = s.tu
  af  : t.af = s.af
  lpc : t.lpc = s.lpc
  slc : t.slc = s.slc
  rx  : ∀ p, t.rx p = s.rx p

theorem LineWork.refl (s : State) : LineWork s s := ⟨rfl, rfl, rfl, rfl, rfl, rfl, rfl, fun _ => rfl⟩

theorem LineWork.trans {s t u : State} (h1 : LineWork s t) (h2 : LineWork t u) : LineWork s u :=
  ⟨h2.pending.trans h1.pending, h2.draws.trans h1.draws, h2.resetHeld.trans h1.resetHeld, h2.tu.trans h1.tu,
   h2.af.trans h1.af, h2.lpc.trans h1.lpc, h2.slc.trans h1.slc, fun p => (h2.rx p).trans (h1.rx p)⟩

theorem LineWork.of_egress {s t : State} (h : EgressWork s t) : LineWork s t :=
  ⟨h.pending, h.draws, h.resetHeld, h.tu, h.af, h.lpc, h.slc, h.rx⟩

/-- Changes of the link records, the Cost Table and the counters and notices alone. -/
theorem LineWork.of_tables (s : State) (lm : PerPort LinkRecord) (rc : RouteComputer) (snu : Statistics) :
    LineWork s { s with lm := lm, rc := rc, snu := snu } :=
  ⟨rfl, rfl, rfl, rfl, rfl, rfl, rfl, fun _ => rfl⟩

/-- A report changes the Statistics and Notice Unit alone (R79, R80). -/
theorem State.report_frame (s : State) (p : Port) (o n : LinkState) :
    s.report p o n = { s with snu := (s.report p o n).snu } := by
  simp only [State.report, State.countIf]
  repeat' split
  all_goals rfl

theorem State.transition_frame (s : State) (p : Port) (f : LinkRecord → LinkRecord) :
    s.transition p f = { s.setLink p (f (s.link p)) with snu := (s.transition p f).snu } := by
  rw [State.transition, State.report_frame]

theorem State.transition_link (s : State) (p : Port) (f : LinkRecord → LinkRecord) :
    (s.transition p f).link p = f (s.link p) := by
  rw [State.transition_frame]; exact PerPort.get_set_self _ _ _

theorem State.transition_link_of_ne (s : State) {p q : Port} (f : LinkRecord → LinkRecord) (h : q ≠ p) :
    (s.transition p f).link q = s.link q := by
  rw [State.transition_frame]; exact PerPort.get_set_of_ne _ _ h

theorem LineWork.transition (s : State) (p : Port) (f : LinkRecord → LinkRecord) : LineWork s (s.transition p f) := by
  rw [State.transition_frame]; exact .of_tables s _ s.rc _

theorem LineWork.evaluate (s : State) (p : Port) (timer : Bool) : LineWork s (s.evaluate p timer) :=
  .transition s p _

theorem LineWork.recompute (s : State) : LineWork s s.recompute := .of_tables s s.lm _ _

theorem LineWork.settleRoutes (s : State) (p : Port) (old : LinkState) (always : Bool) :
    LineWork s (s.settleRoutes p old always) := by
  have h1 : LineWork s (if always || old.reroutes (s.link p).state then s.recompute else s) := by
    split
    · exact .recompute s
    · exact .refl s
  simp only [State.settleRoutes]
  generalize (if always || old.reroutes (s.link p).state then s.recompute else s) = s1 at h1 ⊢
  by_cases h : old.leaves (s1.link p).state = true
  · rw [if_pos h]; exact h1.trans (.of_egress (.flush _ p))
  · rw [if_neg h]; exact h1

theorem LineWork.selfHail (s : State) (p : Port) : LineWork s (s.selfHail p) :=
  (LineWork.transition s p _).trans ((LineWork.of_tables _ _ _ _).trans (.settleRoutes _ p _ _))

theorem LineWork.takeFromNeighbour (s : State) (p : Port) (a : Time) (h : Hail) :
    LineWork s (s.takeFromNeighbour p a h) := by
  simp only [State.takeFromNeighbour, State.countIf]
  split
  · exact .of_tables s _ s.rc _
  · exact .of_tables s _ s.rc s.snu

theorem LineWork.takeCosts (s : State) (p : Port) (h : Hail) : LineWork s (s.takeCosts p h) :=
  .of_tables s s.lm _ _

theorem LineWork.neighbourHail (s : State) (p : Port) (a : Time) (h : Hail) : LineWork s (s.neighbourHail p a h) := by
  have h4 := (((LineWork.transition s p (fun r => r.identify (fibrePort p) s.now h)).trans
    (.takeFromNeighbour _ p a h)).trans (.evaluate _ p false)).trans (.takeCosts _ p h)
  simp only [State.neighbourHail]
  split
  · exact h4.trans (.of_egress (.flush _ p))
  · exact h4

theorem LineWork.hail (s : State) (p : Port) (a : Time) (h : Hail) : LineWork s (s.hail p a h) := by
  simp only [State.hail]
  split
  · exact .selfHail s p
  · exact .neighbourHail s p a h

theorem LineWork.statusWord (s : State) (p : Port) (w : StatusWord) : LineWork s (s.statusWord p w) :=
  (LineWork.of_tables s _ s.rc s.snu).trans ((LineWork.evaluate _ p false).trans (.settleRoutes _ p _ _))

theorem LineWork.silent (s : State) (p : Port) : LineWork s (s.silent p) := by
  simp only [State.silent]
  refine LineWork.trans ?_ (.settleRoutes _ p _ _)
  split
  · exact (LineWork.transition s p _).trans (.of_tables _ _ _ _)
  · exact .transition s p _

theorem LineWork.timerEvent (s : State) (p : Port) : LineWork s (s.timerEvent p) :=
  (LineWork.evaluate s p true).trans (.settleRoutes _ p _ _)

theorem LineWork.settleEvent (s : State) (p : Port) : LineWork s (s.settleEvent p) :=
  (LineWork.of_tables s _ s.rc s.snu).trans ((LineWork.evaluate _ p false).trans (.settleRoutes _ p _ _))

theorem LineWork.act (s : State) (a : Port × Action) : LineWork s (s.act a) :=
  (LineWork.of_tables s _ s.rc s.snu).trans (.settleRoutes _ a.1 _ _)

theorem LineWork.actAll (l : List (Port × Action)) : ∀ s : State, LineWork s (s.actAll l) := by
  induction l with
  | nil => intro s; exact .refl s
  | cons a l ih => intro s; exact (LineWork.act s a).trans (ih _)

/-! ### The link records after an event of one port -/

/-- The queue work of a port that leaves service touches hail fields alone. -/
theorem State.settleRoutes_link (s : State) (p : Port) (old : LinkState) (always : Bool) (q : Port) :
    ((s.settleRoutes p old always).link q).hailedFrom (s.link q) := by
  have h1 : (if always || old.reroutes (s.link p).state then s.recompute else s).link q = s.link q := by
    split <;> rfl
  simp only [State.settleRoutes]
  generalize (if always || old.reroutes (s.link p).state then s.recompute else s) = s1 at h1 ⊢
  by_cases h : old.leaves (s1.link p).state = true
  · rw [if_pos h, ← h1]; exact (EgressWork.flush _ p).link q
  · rw [if_neg h, h1]; exact LinkRecord.hailedFrom_refl _

/-- The fields other than hail due and the last sent hail sequence are the same. -/
theorem LinkRecord.hailedFrom_state {r' r : LinkRecord} (h : r'.hailedFrom r) : r'.state = r.state := by
  rw [h.1]

/-- The link records after a schedule match's or a FORCE's action on one port: the port's own after the action, every
other as it was, but for a HAIL that departed. -/
theorem State.act_link (s : State) (a : Port × Action) (q : Port) :
    ((s.act a).link q).hailedFrom (if q = a.1 then (s.link q).act s.now a.2 else s.link q) := by
  have h := State.settleRoutes_link (s.setLink a.1 ((s.link a.1).act s.now a.2)) a.1 (s.link a.1).state false q
  by_cases hq : q = a.1
  · subst hq
    rw [State.setLink_link_self] at h
    simpa [State.act] using h
  · rw [State.setLink_link_of_ne _ _ hq] at h
    simpa [State.act, hq] using h

/-! ### Reports -/

/-- A raise of any kind but COUNT_WRAP and a count do not meet. -/
theorem State.raiseBit_count (s : State) {k : NoticeKind} (h : k ≠ .countWrap) (i : Nat) (c : CounterName) :
    (s.raiseBit k i).count c = (s.count c).raiseBit k i := by
  have hc : (s.raiseBit k i).snu.counter c = s.snu.counter c := by cases c <;> rfl
  simp only [State.count, Statistics.count, hc]
  cases hw : (s.snu.counter c).wraps <;> cases k <;> cases c <;> first | rfl | exact absurd rfl h

/-- A report as its count and then its raises: FADE_COUNT, then LINK_DOWN or LINK_UP (R79, R80). -/
theorem State.report_eq (s : State) (p : Port) (old new : LinkState) :
    s.report p old new =
      (let counted := s.countIf (decide (new = .faded) && decide (old ≠ .faded)) (.port p .fadeCount)
       let down := if old.leaves new then counted.raiseBit .linkDown p.toNat else counted
       if new.leaves old then down.raiseBit .linkUp p.toNat else down) := by
  cases old <;> cases new <;> first | rfl | exact State.raiseBit_count _ (by decide) _ _

end Sys2Proof.Machine
end

