-- ==== Sys2Proof/Laws/Formats.lean ====
section
/-! SUPPORT. Bytes and service-line transfers: numbers survive their bytes, and what a transfer does before its
command's own effect. -/

namespace Sys2Proof.Machine

/-! ### Bytes -/

@[simp] theorem length_beBytes (n : Nat) : ∀ v, (beBytes n v).length = n := by
  induction n with
  | zero => intro v; rfl
  | succ n ih => intro v; simp [beBytes, ih]

@[simp] theorem length_beTime (t : Time) : (beTime t).length = 6 := length_beBytes _ _

@[simp] theorem length_beSigned (n : Nat) (v : Int) : (beSigned n v).length = n := length_beBytes _ _

@[simp] theorem ofBytes_nil : ofBytes [] = 0 := rfl

/-- A byte appended is the least significant one. -/
theorem ofBytes_concat (l : List Byte) (b : Byte) : ofBytes (l ++ [b]) = ofBytes l * 256 + b.toNat := by
  simp [ofBytes]

@[simp] theorem ofBytes_singleton (b : Byte) : ofBytes [b] = b.toNat := by simp [ofBytes]

/-- The number of a number's bytes is the number, in as many bytes. -/
theorem ofBytes_beBytes (n : Nat) : ∀ v, ofBytes (beBytes n v) = v % 256 ^ n := by
  induction n with
  | zero => intro v; simp [beBytes, Nat.mod_one]
  | succ n ih =>
    intro v
    rw [beBytes, ofBytes_concat, ih, BitVec.toNat_ofNat, Nat.pow_succ' (m := 256), Nat.mod_mul]
    omega

theorem ofBytes_beBytes_of_lt {n v : Nat} (h : v < 256 ^ n) : ofBytes (beBytes n v) = v := by
  rw [ofBytes_beBytes, Nat.mod_eq_of_lt h]

@[simp] theorem ofTime_beTime (t : Time) : ofTime (beTime t) = t := by
  rw [ofTime, beTime, ofBytes_beBytes_of_lt (by have := t.isLt; norm_num; omega)]
  simp

theorem ofBytes_lt (l : List Byte) : ofBytes l < 256 ^ l.length := by
  induction l using List.reverseRecOn with
  | nil => decide
  | append_singleton l b ih =>
    rw [ofBytes_concat, List.length_append, List.length_singleton, Nat.pow_succ]
    have := b.isLt
    omega

/-- Two bytes side by side are the 16-bit number that they spell. -/
theorem ofNat_ofBytes_pair (a b : Byte) : BitVec.ofNat 16 (ofBytes [a, b]) = a ++ b := by
  apply BitVec.eq_of_toNat_eq
  have ha := a.isLt
  have hb := b.isLt
  rw [BitVec.toNat_append, ← Nat.shiftLeft_add_eq_or_of_lt (by simpa using hb)]
  simp [ofBytes, Nat.shiftLeft_eq]
  omega

/-- Four bytes side by side are the 32-bit number that they spell. -/
theorem ofNat_ofBytes_quad (a b c d : Byte) : BitVec.ofNat 32 (ofBytes [a, b, c, d]) = a ++ b ++ (c ++ d) := by
  have ha := a.isLt
  have hb := b.isLt
  have hc := c.isLt
  have hd := d.isLt
  apply BitVec.eq_of_toNat_eq
  rw [BitVec.toNat_append, ← ofNat_ofBytes_pair, ← ofNat_ofBytes_pair,
    ← Nat.shiftLeft_add_eq_or_of_lt (BitVec.isLt _), Nat.shiftLeft_eq]
  simp [ofBytes, List.foldl]
  omega

theorem bytesAt_lt (l : List Byte) (i n : Nat) : bytesAt l i n < 256 ^ n :=
  lt_of_lt_of_le (ofBytes_lt _) (Nat.pow_le_pow_right (by norm_num) (by simp))

/-! ### A field of a record that stands among others -/

theorem bytesAt_append_left {a : List Byte} (b : List Byte) {i n : Nat} (h : i + n ≤ a.length) :
    bytesAt (a ++ b) i n = bytesAt a i n := by
  rw [bytesAt, List.drop_append_of_le_length (by omega), List.take_append_of_le_length (by simp; omega), bytesAt]

theorem bytesAt_append_right {a : List Byte} (b : List Byte) {i : Nat} (n : Nat) (h : a.length ≤ i) :
    bytesAt (a ++ b) i n = bytesAt b (i - a.length) n := by
  rw [bytesAt, List.drop_append, List.drop_eq_nil_of_le h, List.nil_append, bytesAt]

/-- In a table of records of one width, the field of a record stands where the record begins. -/
theorem bytesAt_flatten_map {α : Type} {f : α → List Byte} {w : Nat} (hw : ∀ x, (f x).length = w) :
    ∀ {l : List α} {k : Nat} {x : α} {i n : Nat}, l[k]? = some x → i + n ≤ w →
      bytesAt (l.map f).flatten (w * k + i) n = bytesAt (f x) i n
  | [], _, _, _, _, hk, _ => by simp at hk
  | y :: l, 0, x, i, n, hk, h => by
    obtain rfl : y = x := by simpa using hk
    simpa using bytesAt_append_left (l.map f).flatten (by rw [hw]; exact h)
  | y :: l, k + 1, x, i, n, hk, h => by
    rw [List.map_cons, List.flatten_cons, bytesAt_append_right _ _ (by rw [hw, Nat.mul_succ]; omega), hw,
      show w * (k + 1) + i - w = w * k + i by rw [Nat.mul_succ]; omega]
    exact bytesAt_flatten_map hw (by simpa using hk) h

/-! ### Transfers -/

@[simp] theorem State.endTimeRead_of_idle {s : State} (h : s.slc.timeRead = false) (n : Nat) : s.endTimeRead n = s := by
  simp [State.endTimeRead, h]

/-- A transfer addressed to this chip has the effect of its command. -/
theorem State.transfer_of_addressed {s : State} {dev : BitVec 2} (h : s.addressed dev) (f : State → State) :
    s.transfer dev f = f s := by
  simp [State.transfer, h.1, h.2]

/-- A chip of another code ignores a transfer (R161). -/
theorem State.transfer_of_foreign {s : State} {dev : BitVec 2} (ht : s.slc.timeRead = false)
    (hd : dev ≠ s.slc.deviceCode) (f : State → State) : s.transfer dev f = s := by
  simp [State.transfer, ht, hd]

/-- A command taken only in SERVICE: its effect there, REFUSED_STATE and nothing else in CONFIG (R167). -/
theorem State.serviceCommand_spec (s : State) (code : Byte) (f : State → State) :
    (s.inService = true ∧ s.serviceCommand code f = f s)
    ∨ (s.inService = false
        ∧ s.serviceCommand code f
          = { s with slc := { s.slc with last := ⟨some ⟨0, code⟩, .refusedState, none⟩ } }) := by
  cases h : s.inService
  · exact .inr ⟨rfl, by simp [State.serviceCommand, h, State.setResult, commandName]⟩
  · exact .inl ⟨rfl, by simp [State.serviceCommand, h]⟩

/-- What the end of a TIME_READ leaves unchanged. -/
theorem State.endTimeRead_frame (s : State) (n : Nat) :
    ∃ (tu : TimeUnit) (out : List Byte) (tr : Bool) (ns : NoticeSet),
      s.endTimeRead n = { s with tu := tu, slc := { s.slc with timeRead := tr, dataOut := out },
                                 snu := { s.snu with notices := ns } }
      ∧ tu.ic = s.tu.ic ∧ tu.st = s.tu.st ∧ tu.frac = s.tu.frac ∧ tu.trim = s.tu.trim ∧ tu.schedule = s.tu.schedule
      ∧ tu.edgesSeen = s.tu.edgesSeen ∧ tu.missed = s.tu.missed := by
  simp only [State.endTimeRead]
  split
  · simp only [State.applyHeld]
    split
    · exact ⟨s.tu, _, false, s.snu.notices, rfl, rfl, rfl, rfl, rfl, rfl, rfl, rfl⟩
    · simp only [State.applyCapture]
      split <;> exact ⟨_, _, false, _, rfl, rfl, rfl, rfl, rfl, rfl, rfl, rfl⟩
  · exact ⟨s.tu, s.slc.dataOut, s.slc.timeRead, s.snu.notices, rfl, rfl, rfl, rfl, rfl, rfl, rfl, rfl⟩

/-! ### The notice order in force -/

@[simp] theorem State.orderInForce_of_service {s : State} (h : s.inService = true) :
    s.orderInForce = s.image.noticeOrder := if_pos h

@[simp] theorem State.orderInForce_of_config {s : State} (h : s.inService = false) : s.orderInForce = 0 := by
  simp [State.orderInForce, h, Image.defaults]

end Sys2Proof.Machine
end

