-- ==== Sys2Proof/Laws/Tables.lean ====
section
/-! SUPPORT. The Route Computer's choice, the Cost Table's order, and the counters: what each operation gives. -/

namespace Sys2Proof.Machine

open Config (unreachable)

/-! ### The choice -/

/-- What the fold of `lowest` keeps: a port found so far is listed, offers a route and is no dearer than any listed. -/
theorem foldl_better_spec (v : PerPort Nat) (l : List Port) :
    ∀ b : Option Port, (∀ p ∈ b, v.get p < unreachable) →
      (l.foldl (better v) b = none ↔ b = none ∧ ∀ p ∈ l, unreachable ≤ v.get p)
      ∧ ∀ p, l.foldl (better v) b = some p →
          (p ∈ l ∨ b = some p) ∧ v.get p < unreachable ∧ (∀ q ∈ l, v.get p ≤ v.get q)
          ∧ ∀ q ∈ b, v.get p ≤ v.get q := by
  induction l with
  | nil =>
    intro b hb
    refine ⟨by simp, ?_⟩
    intro p hp
    exact ⟨.inr hp, hb p hp, by simp, fun q hq => by
      have hqp : b = some q := hq
      have hpp : b = some p := hp
      rw [hqp] at hpp
      simp only [Option.some.injEq] at hpp
      rw [hpp]⟩
  | cons x xs ih =>
    intro b hb
    have hnew : ∀ p ∈ better v b x, v.get p < unreachable := by
      intro p hp
      simp only [better] at hp
      split at hp
      · exact hb p hp
      · rename_i hx
        split at hp
        · simp only [Option.mem_def, Option.some.injEq] at hp; subst hp; omega
        · split at hp
          · simp only [Option.mem_def, Option.some.injEq] at hp; subst hp; omega
          · exact hb p hp
    obtain ⟨h1, h2⟩ := ih (better v b x) hnew
    simp only [List.foldl_cons]
    refine ⟨?_, ?_⟩
    · rw [h1]
      simp only [better, List.mem_cons, forall_eq_or_imp]
      split
      · rename_i hx; simp [hx]
      · rename_i hx
        cases b with
        | none => simp; omega
        | some q => simp only; split <;> simp
    · intro p hp
      obtain ⟨ha, hc, hd, he⟩ := h2 p hp
      have hxq : v.get p ≤ v.get x ∧ ∀ q ∈ b, v.get p ≤ v.get q := by
        simp only [better] at he
        split at he
        · exact ⟨by omega, he⟩
        · cases b with
          | none => exact ⟨he x rfl, by simp⟩
          | some q =>
            simp only at he
            split at he
            · have hx := he x rfl
              refine ⟨hx, ?_⟩
              intro q' hq'
              simp only [Option.mem_def, Option.some.injEq] at hq'
              subst hq'; omega
            · have hq := he q rfl
              refine ⟨by omega, ?_⟩
              intro q' hq'
              simp only [Option.mem_def, Option.some.injEq] at hq'
              subst hq'; exact hq
      refine ⟨?_, hc, ?_, hxq.2⟩
      · rcases ha with ha | ha
        · exact .inl (by simp [ha])
        · simp only [better] at ha
          split at ha
          · exact .inr ha
          · cases b with
            | none => simp only [Option.some.injEq] at ha; subst ha; exact .inl (by simp)
            | some q =>
              simp only at ha
              split at ha
              · simp only [Option.some.injEq] at ha; subst ha; exact .inl (by simp)
              · exact .inr ha
      · intro q hq
        rcases List.mem_cons.mp hq with rfl | hq
        · exact hxq.1
        · exact hd q hq

/-- No port is chosen exactly where none listed offers a route (R90). -/
theorem lowest_eq_none (v : PerPort Nat) (l : List Port) : lowest v l = none ↔ ∀ p ∈ l, unreachable ≤ v.get p := by
  have h := (foldl_better_spec v l none (by simp)).1
  simpa [lowest] using h

/-- The chosen port is listed, offers a route, and none listed is cheaper (R90). -/
theorem lowest_spec {v : PerPort Nat} {l : List Port} {p : Port} (h : lowest v l = some p) :
    p ∈ l ∧ v.get p < unreachable ∧ ∀ q ∈ l, v.get p ≤ v.get q := by
  obtain ⟨h1, h2, h3, -⟩ := (foldl_better_spec v l none (by simp)).2 p h
  exact ⟨by simpa using h1, h2, h3⟩

theorem Port.mem_all (p : Port) : p ∈ Port.all := by cases p <;> decide

/-- A cost below UNREACHABLE via a port means that the port has a term, hence is usable (R89). -/
theorem viaCost_lt {t : Option Nat} {h : Nat} (hv : viaCost t h < unreachable) :
    t.isSome = true ∧ h < unreachable := by
  simp only [viaCost] at hv
  split at hv
  · omega
  · split at hv
    · omega
    · exact ⟨rfl, by omega⟩

theorem portTerm_usable {g : Image} {p : Port} {r : LinkRecord} (h : (portTerm g p r).isSome = true) :
    r.state.usable = true := by
  simp only [portTerm] at h
  split at h
  · assumption
  · simp at h

theorem CostEntry.via_get (e : CostEntry) (g : Image) (lm : PerPort LinkRecord) (p : Port) :
    (e.via g lm).get p = viaCost (portTerm g p (lm.get p)) (e.heard.get p) := by
  cases p <;> rfl

/-! ### The table's order -/

@[simp] theorem CostEntry.recompute_destination (e : CostEntry) (g : Image) (lm : PerPort LinkRecord) :
    (e.recompute g lm).destination = e.destination := by
  simp only [CostEntry.recompute]; split <;> rfl

@[simp] theorem CostEntry.recompute_heard (e : CostEntry) (g : Image) (lm : PerPort LinkRecord) :
    (e.recompute g lm).heard = e.heard := by
  simp only [CostEntry.recompute]; split <;> rfl

/-- A recompute of a recomputed entry changes nothing (R91). -/
theorem CostEntry.recompute_recompute (e : CostEntry) (g : Image) (lm : PerPort LinkRecord) :
    (e.recompute g lm).recompute g lm = e.recompute g lm := by
  have hd := e.recompute_destination g lm
  have ho : (e.recompute g lm).isOwn g = e.isOwn g := by simp only [CostEntry.isOwn, hd]
  cases h : e.isOwn g
  · have hv : (e.recompute g lm).via g lm = e.via g lm := by simp only [CostEntry.via, e.recompute_heard g lm]
    rw [CostEntry.recompute, ho, h, hv]
    simp only [CostEntry.recompute, h, CostEntry.choose]
    rfl
  · rw [CostEntry.recompute, ho, h]
    simp only [CostEntry.recompute, h, if_true]

/-- A recompute settles the table (R91). -/
theorem State.recompute_settled (s : State) : s.recompute.costsSettled := by
  show (s.rc.recompute s.image s.lm).recompute s.image s.lm = s.rc.recompute s.image s.lm
  simp only [RouteComputer.recompute, List.map_map]
  congr 1
  refine List.map_congr_left ?_
  intro e _
  exact e.recompute_recompute _ _

/-! ### What an event leaves of the heard costs -/

theorem RouteComputer.hearsAs_refl (t : RouteComputer) : t.hearsAs t none :=
  ⟨rfl, List.forall₂_same.2 fun _ _ => ⟨rfl, fun _ => rfl⟩⟩

theorem RouteComputer.hearsAs_recompute {t t0 : RouteComputer} {gone : Option Port} (h : t.hearsAs t0 gone) (g : Image)
    (lm : PerPort LinkRecord) : (t.recompute g lm).hearsAs t0 gone :=
  ⟨h.1, List.forall₂_map_left_iff.2 (h.2.imp fun _ _ he => by simpa using he)⟩

theorem RouteComputer.hearsAs_trans {a b c : RouteComputer} {gone : Option Port} (h1 : a.hearsAs b none)
    (h2 : b.hearsAs c gone) : a.hearsAs c gone := by
  have join : ∀ {x y z : List CostEntry},
      List.Forall₂ (fun e e0 => e.destination = e0.destination ∧ ∀ q, e.heard.get q = if none = some q then 16777215
        else e0.heard.get q) x y →
      List.Forall₂ (fun e e0 => e.destination = e0.destination ∧ ∀ q, e.heard.get q = if gone = some q then 16777215
        else e0.heard.get q) y z →
      List.Forall₂ (fun e e0 => e.destination = e0.destination ∧ ∀ q, e.heard.get q = if gone = some q then 16777215
        else e0.heard.get q) x z := by
    intro x y z h
    induction h generalizing z with
    | nil => intro h2; cases h2; exact .nil
    | cons h hs ih =>
      intro h2
      cases h2 with
      | cons h' hs' => exact .cons ⟨h.1.trans h'.1, fun q => by simpa using (h.2 q).trans (by simpa using h'.2 q)⟩ (ih hs')
  exact ⟨h1.1.trans h2.1, join h1.2 h2.2⟩

theorem RouteComputer.hearsAs_forget (t : RouteComputer) (p : Port) : (t.forget p).hearsAs t (some p) := by
  refine ⟨rfl, ?_⟩
  simp only [RouteComputer.forget, RouteComputer.hear, List.forall₂_map_left_iff]
  refine List.forall₂_same.2 fun e _ => ⟨rfl, fun q => ?_⟩
  by_cases hq : q = p
  · subst hq; simp [PerPort.get_set_self, vectorCost, unreachable]
  · rw [if_neg (by simpa using fun h => hq h.symm)]
    exact PerPort.get_set_of_ne _ _ hq

theorem mem_insertEntry (e x : CostEntry) (l : List CostEntry) : x ∈ insertEntry e l ↔ x = e ∨ x ∈ l := by
  induction l with
  | nil => simp [insertEntry]
  | cons y ys ih =>
    simp only [insertEntry]
    split
    · simp
    · simp only [List.mem_cons, ih]; tauto

theorem length_insertEntry (e : CostEntry) (l : List CostEntry) : (insertEntry e l).length = l.length + 1 := by
  induction l with
  | nil => rfl
  | cons y ys ih => simp only [insertEntry]; split <;> simp [ih]

theorem insertEntry_rising (e : CostEntry) (l : List CostEntry)
    (hl : l.Pairwise (fun a b => a.destination < b.destination)) (he : ∀ x ∈ l, x.destination ≠ e.destination) :
    (insertEntry e l).Pairwise (fun a b => a.destination < b.destination) := by
  induction l with
  | nil => simp [insertEntry]
  | cons y ys ih =>
    rw [List.pairwise_cons] at hl
    have hy := he y (by simp)
    simp only [insertEntry]
    split
    · rename_i hlt
      rw [List.pairwise_cons]
      refine ⟨?_, List.pairwise_cons.mpr hl⟩
      intro c hc
      rcases List.mem_cons.mp hc with rfl | hc
      · exact hlt
      · have := hl.1 c hc; omega
    · rw [List.pairwise_cons]
      refine ⟨?_, ih hl.2 (fun c hc => he c (by simp [hc]))⟩
      intro c hc
      rcases (mem_insertEntry e c ys).mp hc with rfl | hc
      · omega
      · exact hl.1 c hc

/-- Everything admission can do: nothing but the table full flag, or one new entry with room for it (R86). -/
theorem RouteComputer.enter_cases (t : RouteComputer) (g : Image) (d : Nat) :
    (t.enter g d).entries = t.entries
    ∨ (t.entry? d = none ∧ d ≠ g.number ∧ t.entries.length < Config.costEntries
        ∧ (t.enter g d).entries = insertEntry (.new d) t.entries) := by
  simp only [RouteComputer.enter]
  split
  · exact .inl rfl
  · rename_i h1
    split
    · exact .inl rfl
    · rename_i h2
      split
      · exact .inr ⟨by simpa using h1, h2, by assumption, rfl⟩
      · exact .inl rfl

/-! ### Counters -/

theorem Vector.getElem_set_fin {α : Type} {n : Nat} (v : Vector α n) (i j : Fin n) (x : α) :
    (v.set i.val x).get j = if i = j then x else v.get j := by
  simp only [Vector.get_eq_getElem, Vector.getElem_set]
  by_cases h : i = j
  · simp [h]
  · have : ¬ i.val = j.val := fun e => h (Fin.ext e)
    simp [h, this]

/-- A counter replaced is the counter it was set to; every other is as it was. -/
theorem Statistics.counter_setCounter (n : Statistics) (c d : CounterName) (x : Counter) :
    (n.setCounter c x).counter d = if c = d then x else n.counter d := by
  have hp : ∀ a b : PortCounter, a.index = b.index → a = b := by
    intro a b h; cases a <;> cases b <;> first | rfl | exact absurd h (by decide)
  have hs : ∀ a b : StationCounter, a.index = b.index → a = b := by
    intro a b h; cases a <;> cases b <;> first | rfl | exact absurd h (by decide)
  cases c with
  | port p k =>
    cases d with
    | port q j =>
      by_cases hpq : q = p
      · subst hpq
        simp only [Statistics.setCounter, Statistics.counter, PerPort.get_set_self, Vector.getElem_set_fin,
          CounterName.port.injEq, true_and]
        by_cases hk : k = j
        · simp [hk]
        · have : ¬ k.index = j.index := fun e => hk (hp _ _ e)
          simp [hk, this]
      · simp [Statistics.setCounter, Statistics.counter, PerPort.get_set_of_ne _ _ hpq, Ne.symm hpq]
    | station j => simp [Statistics.setCounter, Statistics.counter]
  | station k =>
    cases d with
    | port q j => simp [Statistics.setCounter, Statistics.counter]
    | station j =>
      simp only [Statistics.setCounter, Statistics.counter, Vector.getElem_set_fin, CounterName.station.injEq]
      by_cases hk : k = j
      · simp [hk]
      · have : ¬ k.index = j.index := fun e => hk (hs _ _ e)
        simp [hk, this]

/-- A count: the counter named rises by one, wrapping, and no other moves (R149, R150). -/
theorem Statistics.counter_count (n : Statistics) (c d : CounterName) :
    (n.count c).counter d = if c = d then (n.counter c).bump else n.counter d := by
  have h : (n.count c).counter d = (n.setCounter c (n.counter c).bump).counter d := by
    simp only [Statistics.count]
    split
    · cases d <;> rfl
    · rfl
  rw [h, Statistics.counter_setCounter]

/-- The notices after a count: COUNT_WRAP raised where the counter wraps, else as they were (R150). -/
theorem Statistics.notices_count (n : Statistics) (c : CounterName) :
    (n.count c).notices =
      if (n.counter c).wraps then n.notices.raiseBit .countWrap c.scopeBit else n.notices := by
  have h : ∀ x, (n.setCounter c x).notices = n.notices := by intro x; cases c <;> rfl
  simp only [Statistics.count]
  split <;> simp [h]

@[simp] theorem NoticeSet.get_set_self (n : NoticeSet) (k : NoticeKind) (x : Notice) : (n.set k x).get k = x := by
  cases k <;> rfl

theorem NoticeSet.get_set_of_ne (n : NoticeSet) {k j : NoticeKind} (x : Notice) (h : j ≠ k) :
    (n.set k x).get j = n.get j := by
  cases k <;> cases j <;> first | rfl | exact absurd rfl h

end Sys2Proof.Machine
end

