-- ==== Sys2Proof/Tests/Slice0.lean ====
section
/-! SUPPORT. Tests: WellFormed's refusals, transfers written out from section 11.3, the manual's worked numbers, one
small step per family of commands, and for every statement with hypotheses a theorem that concrete states and operands
meet them (witness_<Name>, each clause at a boundary where it has one). -/

namespace Sys2Proof.Tests

open Sys2Proof Sys2Proof.Machine

/-! ### States -/

/-- A sound image: station 7, SOURCE, every port enabled, profiles 0 and 1 in use. -/
def image : Image :=
  { Image.defaults with stationNumber := 7, role := 0, portEnable := 0x1F,
                        profiles := (Image.defaults.profiles.set 0 ⟨-160, 100⟩).set 1 ⟨-150, 500⟩ }

/-- The released chip in CONFIG with the sound image. -/
def inConfig : State :=
  { State.reset with resetHeld := false, slc := { State.reset.slc with image := image } }

/-- The chip in SERVICE, every port still disabled. -/
def served : State :=
  { inConfig with slc := { inConfig.slc with station := .service },
                  af := { inConfig.af with own := ⟨7, 0, 65535, 0, 0⟩ } }

/-- A link record in CLEAR with a neighbour, P and a margin of 40. -/
def clearLink : LinkRecord :=
  { LinkRecord.powerOn (some 40) with
    enabled := true, neighbour := some (12, .p1), neighbourState := some .clear, silence := some 0,
    delay := some 83000, state := .clear, holdDuration := some 200, hailTimer := some 0 }

/-- The chip in SERVICE with port 0 in CLEAR. -/
def lively : State := served.setLink .p0 clearLink

/-- A FLOOD header of origin 3, sequence 10, and its payload. -/
def header : RouteHeader :=
  { kind := .flood, origin := 3, startNumber := 1, sequence := 10, target := 0, urgency := .u2, budget := 4, hops := 1,
    originStamp := 5, routeDelay := 100, inexact := false, length := 8 }

def payload : List Byte := [1, 2, 3, 4, 5, 6, 7, 8]

/-- A buffer in use that holds it. -/
def buffer (i : Nat) : Buffer :=
  { id := i, header := header, payload := payload, stamp := ⟨0, 0⟩, arrival := .line .p1,
    used := ⟨false, true, false, false, false⟩, refs := 1 }

/-- `lively` with buffer 0 in use. -/
def buffered : State := { lively with fe := { lively.fe with pool := [buffer 0] } }

/-- A HAIL of station 12, port 1. -/
def hail : Hail :=
  { sender := 12, senderPort := .p1, senderRole := .relay, sequence := 9, departure := 1000, farMargin := 30,
    senderState := .clear, echo := none, vector := [(1, 500), (5, 16777215)] }

/-- The state after a command, where it answers one. -/
def after (c : Instr) (s : State) : State :=
  match exec c s with
  | .next t => t
  | .fault _ | .refused _ => s

/-! ### WellFormed refuses what the pins cannot carry -/

theorem test_wellFormed_status_word_of_fibre : (Instr.modemStatusWord .p4 [0, 0, 0]).wellFormed = false := by decide
theorem test_wellFormed_status_word_of_four_bytes :
    (Instr.modemStatusWord .p0 [0, 0, 0, 0]).wellFormed = false := by decide
theorem test_wellFormed_empty_request : (Instr.ingressCompletion [] false).wellFormed = false := by decide
theorem test_wellFormed_known_code : (Instr.unknownCommand 0 3).wellFormed = false := by decide
theorem test_wellFormed_short_record : (Instr.configWrite 0 [8, 1]).wellFormed = false := by decide
theorem test_wellFormed_known_type : (Instr.unknownTransferType 0 2).wellFormed = false := by decide

/-! ### Transfers (R162, R179) -/

theorem test_transfer_start : decodeTransfer [0x80, 0x00, 0x01] false = [.start 2] := by decide
theorem test_transfer_force :
    decodeTransfer [0x00, 0x0A, 0x03, 0x01, 0x02] false = [.force 0 0b01010 [1, 2]] := by decide
theorem test_transfer_arm_schedule :
    decodeTransfer [0x40, 0x00, 0x04, 0x03, 0x46, 0x30, 0xB8, 0xA0, 0x00, 0x01, 0x02] false
      = [.armSchedule 1 3600000000000 1 0b00010] := by decide
/-- Bits 7..5 of the port mask byte are ignored (log 34). -/
theorem test_transfer_arm_schedule_mask :
    decodeTransfer [0x40, 0x00, 0x04, 0x03, 0x46, 0x30, 0xB8, 0xA0, 0x00, 0x01, 0xE2] false
      = [.armSchedule 1 3600000000000 1 0b00010] := by decide
theorem test_transfer_trim :
    decodeTransfer [0xC0, 0x00, 0x07, 0xFF, 0xFF, 0xFF, 0xFE] false = [.timeTrim 3 (-2)] := by decide
theorem test_transfer_config_write :
    decodeTransfer [0x01, 0x00, 0x01, 0x0C, 0x08, 0x03, 0xE8] false
      = [.configWrite 0 [0x01, 0x0C, 0x08, 0x03, 0xE8]] := by decide
theorem test_transfer_counter_read : decodeTransfer [0x03, 0x84, 0, 0] false = [.counterRead 0 0b00100 true 2] := by
  decide
theorem test_transfer_table_read_race :
    decodeTransfer [0x04, 0x83, 0] false = [.tableReadRace 0 0b00011 1] := by decide
theorem test_transfer_unknown_selector : decodeTransfer [0x04, 0xE0] false = [.tableReadUnknown 0 0] := by decide
theorem test_transfer_cut_short : decodeTransfer [0x00, 0x00, 0x06, 0x00, 0x01] false = [.transferCutShort] := by
  decide
theorem test_no_word_spells_a_command : decodeTableWord 8 3 = none := rfl

/-! ### The manual's worked numbers -/

/-- R173: the CRC-32 with its usual parameters, whose check value of "123456789" is 0xCBF43926. -/
theorem test_crc : crc32 [0x31, 0x32, 0x33, 0x34, 0x35, 0x36, 0x37, 0x38, 0x39] = 0xCBF43926#32 := by decide +kernel

/-- Section 2.2: trim +1,500 ppb over two milliseconds, and the lowest trim over a second. -/
theorem test_trim_1500 :
    ((({ TimeUnit.powerOn with trim := 1500 } : TimeUnit).advance 1000000).st,
     ((({ TimeUnit.powerOn with trim := 1500 } : TimeUnit).advance 1000000).advance 1000000).st)
      = (1000001#48, 2000003#48) := by decide
theorem test_trim_lowest :
    (({ TimeUnit.powerOn with trim := -200000 } : TimeUnit).advance 1000000000).st = 999800000#48 := by decide

/-- R25: a step of −700,000,000 at 200,000,000 leaves 2^48 − 500,000,000. -/
theorem test_step_wraps :
    (({ TimeUnit.powerOn with st := 200000000 } : TimeUnit).step (-700000000)).st.toNat = 2 ^ 48 - 500000000 := by
  decide

/-- Section 2.5: the drain planned for ST 3,600,000,000,000. -/
theorem test_schedule_due :
    let t (st : Time) : TimeUnit :=
      { TimeUnit.powerOn with st := st, schedule := ⟨true, 3600000000000, .drain, 2⟩ }
    (t 3000000000000).scheduleDue = false ∧ (t 3600300000000).scheduleDue = true := by decide

/-- R56: P = 83,000 and s = 83,210 give 83,026. -/
theorem test_delay_filter : (clearLink.filter 2000 83210).1.delay = some 83026 := by decide

/-- Section 4.1: the margin filter with MARGIN_SHIFT 2. -/
theorem test_margin_filter :
    [smooth 2 (some 20) 12, smooth 2 (some 15) 12, smooth 2 (some 13) 12, smooth 2 (some 10) 12]
      = [18, 14, 12, 10] := by decide

/-- R88: the table of serialization terms, and the term at 333 Mbit/s. -/
theorem test_serialization :
    [serialization { image with refLen := 128 } 500, serialization { image with refLen := 64 } 2000,
     serialization { image with refLen := 1024 } 10, serialization { image with refLen := 128 } 333]
      = [some 2688, some 416, some 851200, some 4037] := by decide

/-- Section 6.5: the lateness of a copy that began first, and of one 12,300 ns late. -/
theorem test_lateness :
    (lateness 7539990000 7540000000, lateness 7540512300 7540500000) = (0, 12300) := by decide

/-- R159: group order BAC with first kinds NO_ROUTE, LINK_DOWN and TIME_EVENT. -/
theorem test_notice_order :
    noticeOrder 0 0b110010 = [.noRoute, .routeChange, .linkDown, .linkUp, .timeEvent, .countWrap] := by decide

/-- R177, R62: profile 1 at −138 against a threshold of −150 gives 12. -/
theorem test_status_word :
    (StatusWord.read [0x81, 0xFF, 0x76]).map (rawMargin image) = some 12 := by decide

/-- R178: an accepted reply, and the delivery record of an AIMED message that came by port 3, byte by byte. -/
theorem test_reply_bytes : (Reply.accepted 0x0102 0x030405060708 2).bytes = [0, 1, 2, 3, 4, 5, 6, 7, 8, 2] := by decide
theorem test_delivery_record_bytes :
    ({ kind := .aimed, inexact := true, urgency := .u1, origin := 9, target := 7, startNumber := 4, sequence := 0x0102,
       hops := 3, winning := .line .p3, originStamp := 5, arrivalSt := 6, routeDelay := 0x00010203, length := 8,
       payload := payload } : DeliveryRecord).bytes
      = [0xA1, 9, 7, 4, 1, 2, 3, 3, 0, 0, 0, 0, 0, 5, 0, 0, 0, 0, 0, 6, 0, 1, 2, 3, 0, 8, 1, 2, 3, 4, 5, 6, 7, 8] := by
  decide

/-- R181: items 17, 30 and 16 are HAIL_INTERVAL, PAIR_WINDOW and profile 7. -/
theorem test_items_by_number :
    (image.write 17 [1, 0x2C]).hailInterval = 300 ∧ (image.write 30 [0, 0, 1, 0]).pairWindow = 256
    ∧ (image.write 16 [0xFF, 0x60, 0, 100]).profiles.get 7 = ⟨-160, 100⟩ := by decide

/-! ### One small step per family -/

theorem test_arrival_takes_buffer : (after (.arrivalStart .p0 1) lively).rx .p0 = .traffic 0 := by decide
theorem test_arrival_of_disabled_port : (after (.arrivalStart .p1 1) lively).rx .p1 = .idle := by decide
theorem test_hail_timer : ((after (.hailTimerExpiry .p0)
    { lively with tu := { lively.tu with ic := 500000 } }).link .p0).lastSent = 0 := by decide
theorem test_drain : ((after (.force 0 1 [1]) lively).link .p0).state = .drained := by decide
theorem test_force_in_config : (after (.force 0 1 [1]) inConfig).slc.last.result = .refusedState := by decide
theorem test_first_edge_gives_no_period : (after .tinRisingEdge lively).tu.period = none := by decide
theorem test_request_of_relay_refused :
    (after (.ingressCompletion [0, 0, 1, 2, 3, 4, 5, 6, 7, 8] false)
      { served with slc := { served.slc with image := { image with role := 2 } },
                    lpc := { served.lpc with request := some false } }).lpc.reply = some (.refused .role) := by decide
theorem test_start_of_defaults : (after (.start 0) { inConfig with slc := { inConfig.slc with
    image := .defaults } }).slc.last.failing = some 1 := by decide +kernel
theorem test_config_write_later_stands : (after (.configWrite 0 [1, 5, 1, 6]) inConfig).image.number = 6 := by decide
theorem test_read_pads_with_zeros : (after (.tableReadCost 0 3) lively).slc.dataOut = [0, 0, 0] := by decide
theorem test_foreign_transfer : (after (.disarm 1) lively).slc.last.transfer = none := by decide

/-! ### Witnesses: the hypotheses of the statements can be met -/

theorem witness_StepRunsFrontCommand :
    ({ lively with pending := [.deliveryReady] } : State).pending = .deliveryReady :: [] := rfl

theorem witness_EmptyQueueTicksTheClocks :
    State.reset.pending = [] ∧ State.reset.resetHeld = true ∧ lively.pending = [] ∧ lively.resetHeld = false := by
  decide

/-- R81: a tick of fade time in HOLD, and none in CLEAR. -/
theorem test_fade_time_accrues :
    let s := (lively.setLink .p0 { clearLink with state := .hold }).setLink .p1 clearLink
    ((s.advance 1).link .p0).fadeRemainder = 1 ∧ ((s.advance 1).link .p1).fadeRemainder = 0 := by decide

theorem witness_StationTimeAdvancesExactly :
    ∀ x ∈ [(-200000 : Int), 0, 200000],
      let t : TimeUnit := { TimeUnit.powerOn with trim := x, frac := 999999999 }
      (-200000 : Int) ≤ t.trim ∧ t.trim ≤ 200000 ∧ t.frac < 1000000000 := by decide

theorem witness_ResetReleaseSamplesDeviceCode : State.reset.resetHeld = true ∧ lively.resetHeld = false := by decide

/-- A pool of 256 buffers. -/
def fullPool : Forwarding := { lively.fe with pool := (List.range 256).map buffer }

theorem fullPool_length : fullPool.pool.length = 256 := by simp [fullPool]

theorem witness_ArrivalStartClaimsBufferOrStore :
    inConfig.inService = false ∧ (lively.link .p1).enabled = false ∧ (lively.setRx .p0 .unstored).rx .p0 ≠ .idle
    ∧ (lively.inService = true ∧ (lively.link .p0).enabled = true ∧ lively.rx .p0 = .idle
      ∧ lively.fe.pool.length < 256 ∧ lively.fe.wf) := by decide

theorem witness_ArrivalStartClaimsBufferOrStore_full :
    let s : State := { lively with fe := fullPool }
    s.inService = true ∧ (s.link .p0).enabled = true ∧ s.rx .p0 = .idle ∧ 256 ≤ s.fe.pool.length :=
  ⟨by decide, by decide, by decide, by rw [fullPool_length]⟩

theorem checkTraffic_frame : checkTraffic (trafficFrame header payload) = some (header, payload) := by decide +kernel

/-- R174: a route header written out byte by byte, and one whose kind bits name no kind. -/
theorem test_header_bytes :
    let bytes (b0 : Byte) : List Byte :=
      [b0, 3, 5, 1, 0x01, 0x02, 4, 1, 0, 0, 0, 0, 0, 0, 1, 0, 0, 0, 2, 0, 0, 8, 0, 0]
    RouteHeader.read (bytes 0xA2)
      = some ⟨.aimed, 3, 1, 258, 5, .u2, 4, 1, 256, 512, true, 8⟩
    ∧ RouteHeader.read (bytes 0x22) = none ∧ RouteHeader.read (bytes 0xE2) = none := by decide +kernel

/-- R175: a HAIL without an echo written out byte by byte; its margin is −2, its vector names station 5. -/
theorem test_hail_bytes :
    Hail.read [12, 0x21, 9, 0x02, 0xFE, 1, 0, 0, 0, 0, 1, 0, 5, 0, 1, 0]
      = some ⟨12, .p1, .relay, 9, 256, -2, .clear, none, [(5, 256)]⟩
    ∧ Hail.read [12, 0x25, 9, 0x02, 0xFE, 0, 0, 0, 0, 0, 1, 0] = none := by decide +kernel

theorem checkHail_frame : checkHail (hailFrame hail) = some hail := by decide +kernel

theorem witness_UnacceptedFrameLeavesOnlyItsCount :
    let bad : Frame := { body := [], check := 0, aborted := true }
    (lively.setRx .p0 (.traffic 0)).rx .p0 = .traffic 0 ∧ checkTraffic bad = none
    ∧ (lively.setRx .p0 .unknownClass).rx .p0 = .unknownClass ∧ (lively.setRx .p0 .unstored).rx .p0 = .unstored
    ∧ (lively.setRx .p0 (.abandonedTraffic 0)).rx .p0 = .abandonedTraffic 0
    ∧ (lively.setRx .p0 (.hail 4)).rx .p0 = .hail 4 ∧ checkHail bad = none
    ∧ (lively.setRx .p0 .abandonedHail).rx .p0 = .abandonedHail
    ∧ lively.rx .p1 = .idle ∧ (lively.link .p1).enabled = false ∧ inConfig.rx .p0 = .idle
    ∧ inConfig.inService = false := by decide

theorem witness_GoodFrameIsSteppedFilteredAndReleased :
    let s := buffered.setRx .p0 (.traffic 0)
    s.fe.wf ∧ s.rx .p0 = .traffic 0 ∧ s.fe.buffer? 0 = some (buffer 0) ∧ (s.link .p0).delay = some 83000
    ∧ (s.link .p1).delay = none ∧ header.routeDelay + 83000 ≤ 4294967295
    ∧ checkTraffic (trafficFrame header payload) = some (header, payload) :=
  ⟨by decide, by decide, by decide, by decide, by decide, by decide, checkTraffic_frame⟩

/-- Two entries of one message in the ring, the newer last. -/
def ring : List RingEntry := [⟨3, 1, 10, .line .p1, 500⟩, ⟨3, 1, 10, .line .p2, 600⟩, ⟨4, 1, 10, .loc, 700⟩]

theorem witness_GoodFrameIsSteppedFilteredAndReleased_ring :
    let dup : Judgement := ⟨.dup, lively.af.slots, false⟩
    let filter : ArrivalFilter := { lively.af with ring := ring }
    dup.verdict = .dup ∧ filter.ring = [⟨3, 1, 10, .line .p1, 500⟩] ++ ⟨3, 1, 10, .line .p2, 600⟩ :: [⟨4, 1, 10, .loc, 700⟩]
    ∧ (∀ x ∈ [(⟨4, 1, 10, .loc, 700⟩ : RingEntry)], x.origin ≠ 3)
    ∧ (filter.after dup .p0 1000 3 1 10).race.get .p0 = ⟨400, 1, 400⟩
    ∧ (filter.after dup .p0 599 3 1 10).race.get .p0 = ⟨0, 1, 0⟩
    ∧ (∀ e ∈ ring, e.sequence ≠ 11) ∧ (filter.after dup .p0 1000 3 1 11).race = filter.race := by decide

theorem test_ring_drops_its_oldest :
    addToRing ((⟨1, 0, 0, .loc, 0⟩ : RingEntry) :: List.replicate 63 ⟨2, 0, 0, .loc, 0⟩) ⟨3, 0, 0, .loc, 0⟩
      = List.replicate 63 ⟨2, 0, 0, .loc, 0⟩ ++ [⟨3, 0, 0, .loc, 0⟩] := by decide

/-- A slot of origin 3 at H = 100, with 100 and 90 marked. -/
def slot : Slot := ⟨3, 1, 100, 1025#512, 0⟩

theorem slot_marks : slot.window.getLsbD 10 = true ∧ slot.window.getLsbD 511 = false := by decide +kernel

theorem slot_highest : slot.highest = 100 := rfl

theorem witness_SequenceTestJudgesAgainstWindow :
    [100, 101, 32867, 32868, 90, 65125, 65124].map (fun q : BitVec 16 => (q - slot.highest).toNat)
      = [0, 1, 32767, 32768, 65526, 65025, 65024]
    ∧ slot.window.getLsbD 10 = true ∧ slot.window.getLsbD 511 = false :=
  ⟨by rw [slot_highest]; decide, slot_marks⟩

theorem witness_StartNumberTestComparesOnTheCircle :
    [(1 - slot.startNumber : Byte).toNat, (2 - slot.startNumber : Byte).toNat, (128 - slot.startNumber : Byte).toNat,
     (129 - slot.startNumber : Byte).toNat] = [0, 1, 127, 128] := by decide

/-- Fifteen slots of other origins, the first idle the longest. -/
def heldSlots : Vector (Option Slot) 15 :=
  .ofFn (fun i : Fin 15 => some ⟨10 + i.val, 0, 0, 1, BitVec.ofNat 48 (1000 * (i.val + 1))⟩)

theorem witness_NewOriginTakesFreeOrIdleSlot :
    (∀ t ∈ heldSlots.toList.filterMap id, t.origin ≠ 3) ∧ (∀ k : Fin 15, heldSlots.get k ≠ none)
    ∧ (∀ k : Fin 15, idleTime 20000 (heldSlots.get k) ≤ idleTime 20000 (heldSlots.get 0))
    ∧ idleTime 20000 (heldSlots.get 0) = 19000
    ∧ (∀ t ∈ (heldSlots.set 4 none).toList.filterMap id, t.origin ≠ 3) ∧ (heldSlots.set 4 none).get 4 = none
    ∧ (∀ k : Fin 15, k < 4 → (heldSlots.set 4 none).get k ≠ none)
    ∧ heldSlots.get 2 = some ⟨12, 0, 0, 1, 3000⟩ ∧ (∀ k : Fin 15, k < 2 → ∀ x ∈ heldSlots.get k, x.origin ≠ 12)
    ∧ (judge 7 2000 5000 heldSlots 12 0 1).slots.get 2 = some ⟨12, 0, 1, 3, 5000⟩
    ∧ (judge 7 2000 5000 heldSlots 12 0 1).verdict = .first := by decide +kernel

/-- An entry to station 5 by port 0, then port 2. -/
def entry : CostEntry := ⟨5, ⟨1000, 16777215, 1200, 16777215, 16777215⟩, 90000, some .p0, some .p2, 90100⟩

/-- `buffered` with a route to station 5. -/
def routed : State := { buffered with rc := { entries := [entry], full := false } }

theorem witness_AimedChoiceFollowsTheCostTable :
    routed.image.number = 7 ∧ routed.rc.entry? 5 = some entry ∧ routed.rc.entry? 6 = none ∧ entry.best = some .p0
    ∧ entry.second = some .p2 ∧ Origin.line .p0 = .line .p0 ∧ Origin.loc ≠ .line .p0 := by decide

/-- A queue of 64 entries in class 1. -/
def fullQueue : EgressQueue := ⟨[], [], List.replicate 64 0, []⟩

theorem witness_CopyJoinsItsClassOrIsDropped :
    (lively.queue .p0).size < 64 ∧ 64 ≤ ((lively.setQueue .p0 fullQueue).queue .p0).size
    ∧ (buffer 0).arrival = .line .p1 ∧ 1 ≤ (buffer 0).header.budget
    ∧ ({ header with budget := 0 } : RouteHeader).budget = 0 ∧ [Port.p0, .p2].Nodup := by decide

/-- A Delivery Queue of 64 entries. -/
def fullDeliveries : LocalPort := { lively.lpc with queue := List.replicate 64 0 }

theorem witness_CopyJoinsItsClassOrIsDropped_local :
    let floor : Image := { image with role := 1 }
    let aimed : RouteHeader := { header with kind := .aimed, target := 5 }
    lively.lpc.queue.length < 64 ∧ 64 ≤ fullDeliveries.queue.length ∧ header.kind = .flood
    ∧ (buffer 0).arrival ≠ .loc ∧ floor.roleOf = .floor ∧ image.roleOf = .source ∧ image.crossFeed = 0
    ∧ ({ image with crossFeed := 1 } : Image).crossFeed ≠ 0 ∧ header.origin ≠ image.number ∧ aimed.kind = .aimed
    ∧ routed.aimedChoice (.line .p1) 7 .u2 = .localPort ∧ routed.aimedChoice (.line .p1) 6 .u2 = .noRoute
    ∧ routed.aimedChoice (.line .p1) 5 .u2 = .egress .p0 none
    ∧ (let g : Image := { image with pairClass := 2 }
       let s : State := { routed with slc := { routed.slc with image := g } }
       s.aimedChoice (.line .p1) 5 .u2 = .egress .p0 (some .p2)) := by decide

theorem test_full_delivery_queue_drops :
    (({ lively with lpc := fullDeliveries } : State).placeLocal 0).snu.counter (.station .deliveryDrop)
      = ⟨1, false, false⟩ := by decide

theorem witness_SelectionServesHailThenHighestClass :
    let s := buffered.setQueue .p0 ⟨[], [0], [0], []⟩
    (lively.setTx .p0 (.hail hail)).tx .p0 ≠ .idle ∧ s.tx .p0 = .idle ∧ (s.link .p0).hailDue = false
    ∧ (s.queue .p0).klass .u2 = 0 :: [] ∧ (s.queue .p0).klass .u3 = [] ∧ s.fe.buffer? 0 = some (buffer 0)
    ∧ (s.now - (buffer 0).stamp.ic).toNat ≤ s.image.ageNs
    ∧ (let late : State := { s with tu := { s.tu with ic := 2000001 } }
       late.image.ageNs < (late.now - (buffer 0).stamp.ic).toNat)
    ∧ lively.queue .p0 = .empty ∧ ({ clearLink with hailDue := true } : LinkRecord).hailDue = true := by decide

theorem witness_RouteDelaySaturatesAndNeverFalls :
    header.routeDelay + 83000 ≤ 4294967295 ∧ 4294967295 < header.routeDelay + 4294967295
    ∧ (header.addHop none).inexact = true := by decide

theorem witness_DepartureCompletionCountsAndSelectsAgain :
    lively.tx .p0 = .idle ∧ (lively.setTx .p0 (.hail hail)).tx .p0 = .hail hail
    ∧ (buffered.setTx .p0 (.traffic 0 header)).tx .p0 = .traffic 0 header
    ∧ (buffered.link .p0).hailDue = false ∧ buffered.queue .p0 = .empty := by decide

/-- Buffer 0 as an AIMED message to station 5. -/
def aimedBuffer : Buffer := { buffer 0 with header := { header with kind := .aimed, target := 5 } }

theorem witness_FlushedPortReaimsItsEntries :
    routed.fe.buffer? 0 = some (buffer 0) ∧ (buffer 0).header.kind = .flood
    ∧ (let s : State := { routed with fe := { routed.fe with pool := [aimedBuffer] } }
       s.fe.buffer? 0 = some aimedBuffer ∧ aimedBuffer.header.kind = .aimed ∧ s.rc.entry? 5 = some entry
       ∧ entry.best = some .p0 ∧ entry.second = some .p2 ∧ aimedBuffer.used.get .p0 = false
       ∧ (let twice : Buffer := { aimedBuffer with used := ⟨true, true, false, false, false⟩ }
          twice.used.get .p0 = true ∧ twice.used.get .p2 = false)
       ∧ (let spent : Buffer := { aimedBuffer with used := ⟨true, true, true, false, false⟩ }
          spent.used.get .p0 = true ∧ spent.used.get .p2 = true)
       ∧ (s.queue .p0).size < 64 ∧ 64 ≤ ((s.setQueue .p0 fullQueue).queue .p0).size
       ∧ lively.rc.entry? 5 = none) := by decide

/-- R78, R129, R130: `routed` with an AIMED and a FLOOD copy waiting at port 0, and port 2 usable. -/
def leaving : State :=
  let flood : Buffer := { buffer 1 with used := ⟨true, true, false, false, false⟩ }
  let aimed : Buffer := { aimedBuffer with used := ⟨true, true, false, false, false⟩ }
  ({ routed with fe := { routed.fe with pool := [aimed, flood] } }.setLink .p2 clearLink).setQueue .p0 ⟨[], [0, 1], [], []⟩

/-- The drain of port 0 sends the AIMED copy out by port 2, the best port after the recompute, and flushes the FLOOD. -/
theorem test_leaving_port_reaims_and_flushes :
    let t := after (.force 0 1 [1]) leaving
    (t.rc.entries.map CostEntry.best) = [some .p2] ∧ t.tx .p2 ≠ .idle ∧ t.queue .p0 = .empty
    ∧ t.snu.counter (.port .p0 .reaimed) = ⟨1, false, false⟩ ∧ t.snu.counter (.port .p0 .flushed) = ⟨1, false, false⟩
    ∧ t.fe.pool.map Buffer.id = [0] := by decide +kernel

theorem witness_SelfHailForgetsTheNeighbour :
    let s : State := { lively with slc := { lively.slc with image := { image with stationNumber := 12 } } }.setRx .p0
      (.hail 50)
    s.rx .p0 = .hail 50 ∧ checkHail (hailFrame hail) = some hail ∧ hail.sender = s.image.number :=
  ⟨by decide, checkHail_frame, by decide⟩

theorem witness_NeighbourHailUpdatesRecordAndCosts :
    let s := lively.setRx .p0 (.hail 50)
    s.rx .p0 = .hail 50 ∧ checkHail (hailFrame hail) = some hail ∧ hail.sender ≠ s.image.number
    ∧ (s.link .p0).neighbour = some (hail.sender, hail.senderPort) ∧ (s.link .p1).neighbour = none
    ∧ (s.rc.entries = [] ∧ hail.vector.map Prod.fst = [1, 5] ∧ (1 : Nat) ≠ s.image.number) :=
  ⟨by decide, checkHail_frame, by decide, by decide, by decide, by decide⟩

/-- Fifteen entries of other destinations: room for one of the two that the HAIL names. -/
def crowded : State :=
  { lively with rc := { entries := (List.range 15).map (fun i => { entry with destination := 20 + i }), full := false } }

theorem test_hail_fills_the_table :
    (crowded.hail .p0 50 hail).rc.full = true
    ∧ ((crowded.hail .p0 50 hail).rc.entries.map CostEntry.destination).take 2 = [1, 20] := by decide +kernel

theorem test_hail_of_drained_partner_is_reported :
    let t := lively.hail .p0 50 { hail with senderState := .drained }
    (t.link .p0).state = .seeking ∧ t.snu.notices.linkDown.pending = true
    ∧ t.snu.counter (.port .p0 .fadeCount) = ⟨0, false, false⟩ := by decide +kernel

theorem witness_DelaySampleFollowsTheEcho :
    let e : Echo := ⟨255, 1000, 500⟩
    (clearLink.lastSent - e.sequence).toNat = 0 ∧ 3 < (clearLink.lastSent - 251).toNat
    ∧ ((167500 - e.departure).toNat : Int) - (hail.departure - e.receipt).toNat = 166000
    ∧ clearLink.delay = some 83000 ∧ |((83000 : Nat) : Int) - 83000| ≤ image.delayJump.toNat
    ∧ (image.delayJump.toNat : Int) < |((85001 : Nat) : Int) - 83000| ∧ clearLink.outlierRun < 2
    ∧ (4000000 : Int) < ((4001501 - e.departure : Time).toNat : Int) - (hail.departure - e.receipt).toNat := by decide

theorem witness_HailTimerExpiryMakesAHailDue :
    let s : State := { lively with tu := { lively.tu with ic := 500000 } }
    (s.link .p0).hailTimer = some 0 ∧ s.image.hailNs ≤ (s.now - 0).toNat ∧ (lively.now - 0).toNat < lively.image.hailNs
    ∧ s.tx .p0 = .idle ∧ (s.setTx .p0 (.hail hail)).tx .p0 ≠ .idle := by decide

theorem witness_BuiltHailCarriesTheRecord :
    (lively.link .p0).near = some 40 ∧ (lively.link .p1).near = none ∧ (lively.link .p0).lastHail = none
    ∧ ({ clearLink with lastHail := some ⟨1, 2, 3⟩ } : LinkRecord).lastHail = some ⟨1, 2, 3⟩
    ∧ routed.rc.entries[0]? = some entry ∧ (routed.buildHail .p0 1).vector[0]? = some (5, 16777215)
    ∧ (routed.buildHail .p1 1).vector[0]? = some (5, 90000) := by decide

theorem witness_StatusWordsMoveTheNearMargin :
    let w (l : Bool) (n : BitVec 3) (r : Int) : StatusWord := ⟨l, n, r⟩
    (w false 0 0).lock = false ∧ (image.profile 2).rate = 0 ∧ (image.profile 1).rate ≠ 0
    ∧ (-240 : Int) - (image.profile 1).threshold.toInt = -90 ∧ (127 : Int) < 0 - (image.profile 1).threshold.toInt
    ∧ inMargin (-128) ∧ inMargin 127 := by decide

theorem witness_StatusWordIsTakenInFourSteps :
    inConfig.inService = false ∧ (lively.link .p1).enabled = false ∧ [(0 : Byte), 0].length < 3
    ∧ lively.inService = true ∧ (lively.link .p0).enabled = true ∧ Port.p0 ≠ .p4
    ∧ (lively.link .p0).profile = 0 := by decide

/-- The clauses of a change that reroutes, and of one that does not: FADED to HOLD by a word of profile 0. -/
theorem witness_StatusWordIsTakenInFourSteps_changes :
    let s := lively.setLink .p0 { clearLink with state := .faded, fadeCause := some .rain }
    let t := after (.modemStatusWord .p0 [0x80, 0xFF, 0x9C]) s
    (t.link .p0).state = .hold ∧ (t.link .p0).profile = (s.link .p0).profile
    ∧ ¬ ((s.link .p0).state.usable = true ∨ (t.link .p0).state.usable = true) := by decide +kernel

theorem test_fade_is_reported :
    let s := lively.setLink .p0 { clearLink with near := some 5 }
    let t := after (.modemStatusWord .p0 [0x80, 0xFF, 0x60]) s
    (t.link .p0).state = .faded ∧ t.snu.notices.linkDown.pending = true
    ∧ t.snu.counter (.port .p0 .fadeCount) = ⟨1, false, false⟩ := by decide +kernel

theorem witness_LinkStateMachineTakesFirstTransition :
    image.fadeLevel = 6 ∧ image.restoreLevel = 14 ∧ image.degradeLevel = 24 ∧ image.hysteresisLevel = 8
    ∧ clearLink.near = some 40 ∧ clearLink.far = some 40 ∧ clearLink.neighbour ≠ none ∧ clearLink.delay ≠ none
    ∧ clearLink.neighbourState ≠ some .drained ∧ clearLink.silence ≠ none ∧ clearLink.holdDuration = some 200
    ∧ (∀ x ∈ [LinkState.off, .seeking, .degraded, .faded, .hold, .trial, .drained],
        ({ clearLink with state := x } : LinkRecord).state = x)
    ∧ [min (13 : Int) 40, min 14 40, min 24 40, min 31 40, min 32 40] = [13, 14, 24, 31, 32]
    ∧ ({ clearLink with near := none } : LinkRecord).near = none := by
  decide

theorem test_hold_below_restore_doubles :
    let r : LinkRecord := { clearLink with state := .hold, near := some 13, stateTimer := some ⟨.hold, 0, 200000000⟩ }
    r.evaluate image 50 false = { r with state := .faded, fadeCause := some .rain, stateTimer := none, lastChange := 50,
                                         holdDuration := some 400 } := by decide

theorem witness_SilenceExpiryFollowsTheLinkState :
    let s : State := { lively with tu := { lively.tu with ic := 2000000 } }
    (s.link .p0).silence = some 0 ∧ s.image.silenceNs ≤ (s.now - 0).toNat
    ∧ (lively.now - 0).toNat < lively.image.silenceNs ∧ (s.link .p0).state = .clear
    ∧ ∀ x ∈ [LinkState.degraded, .faded, .hold, .trial, .seeking, .drained],
        ((s.setLink .p0 { clearLink with state := x }).link .p0).state = x := by decide

theorem witness_StateTimerExpiriesAdvanceTheReturn :
    let s (x : LinkState) (k : TimerKind) (m : Int) : State :=
      { lively.setLink .p0 { clearLink with state := x, near := some m, stateTimer := some ⟨k, 0, 100⟩ } with
        tu := { lively.tu with ic := 100 } }
    (∀ k ∈ [TimerKind.hold, .trial, .settle],
      ((s .hold k 40).link .p0).stateTimer = some ⟨k, 0, 100⟩ ∧ 100 ≤ ((s .hold k 40).now - 0).toNat)
    ∧ ((s .hold .hold 13).link .p0).below image.restoreLevel = true
    ∧ ((s .hold .hold 14).link .p0).below image.restoreLevel = false
    ∧ ((s .trial .trial 13).link .p0).below image.restoreLevel = true
    ∧ ((s .trial .trial 14).link .p0).below image.restoreLevel = false
    ∧ ((s .hold .hold 40).link .p0).neighbourState ≠ some .drained
    ∧ ({ clearLink with neighbourState := some .drained } : LinkRecord).neighbourState = some .drained
    ∧ (lively.link .p0).stateTimer = none := by decide

theorem witness_CountersCountAndWrap :
    (lively.link .p0).fadeRemainder < 1000
    ∧ 1000 ≤ ({ clearLink with fadeRemainder := 1000 } : LinkRecord).fadeRemainder
    ∧ (lively.snu.counter (.port .p0 .won)).value.toNat < 4294967295
    ∧ ((lively.snu.setCounter (.port .p0 .won) ⟨0xFFFFFFFF, false, false⟩).counter (.port .p0 .won)).value.toNat
        = 4294967295 := by decide

theorem witness_CostViaAPortFollowsItsLink :
    (lively.link .p0).state = .clear ∧ (lively.link .p0).delay = some 83000 ∧ (image.profile 0).rate.toNat = 100
    ∧ (image.profile 2).rate.toNat = 0 ∧ entry.heard.get .p0 < 16777215 ∧ entry.heard.get .p1 = 16777215
    ∧ (lively.link .p1).state = .off
    ∧ (image.refLen.toNat + 40) * 8000 ≤ 13440 * 100 ∧ 13440 * 100 < (image.refLen.toNat + 40) * 8000 + 100 := by
  decide

theorem witness_RecomputeChoosesTheCheapestPorts :
    image.isEnd = true ∧ entry.destination ≠ image.number ∧ (CostEntry.self 7).destination = image.number
    ∧ (entry.recompute image lively.lm).best = some .p0 ∧ (entry.recompute image lively.lm).second = none
    ∧ (entry.recompute image served.lm).best = none
    ∧ (entry.recompute image (lively.lm.set .p2 clearLink)).second = some .p2 := by decide

theorem witness_RecomputeRaisesRouteNotices :
    routed.rc.entries = [] ++ entry :: []
    ∧ (({ entry with best := none } : CostEntry).recompute image lively.lm).best ≠ none
    ∧ entry.own < 16777215 ∧ (entry.recompute image served.lm).own = 16777215 := by decide

theorem witness_NoticesAreRaisedReportedAndAcknowledged :
    lively.addressed 0 ∧ inConfig.addressed 0 ∧ lively.inService = true ∧ inConfig.inService = false
    ∧ (64 : Byte).toNat = 64 ∧ (63 : Byte).toNat < 64
    ∧ (let x : Notice := ⟨true, true, false, 3⟩
       x.pending = true ∧ x.reported = true ∧ x.setSinceReport = false) := by decide

theorem witness_AlarmAndTopNoticeFollowTheEnables :
    let n := lively.snu.notices.raiseBit .linkUp 0
    (n.get .linkUp).pending = true ∧ image.noticeEnable.getLsbD NoticeKind.linkUp.toNat = true
    ∧ image.noticeOrder.toNat % 8 = 0 ∧ (n.get .linkDown).pending = false
    ∧ noticeOrder 0 image.noticeOrder = [.linkDown] ++ .linkUp :: [.routeChange, .noRoute, .countWrap, .timeEvent] := by
  decide

/-- R168, R169: a NOTICE_ORDER stored in CONFIG, which puts TIME_EVENT before COUNT_WRAP, orders nothing before START. -/
theorem test_stored_notice_order_acts_from_start :
    let n := (lively.snu.notices.raiseBit .countWrap 0).raiseBit .timeEvent 0
    let with_ (s : State) : State := { s with
      slc := { s.slc with image := { image with noticeOrder := 0x20 } }, snu := { s.snu with notices := n } }
    (with_ inConfig).topNotice = some .countWrap ∧ (with_ lively).topNotice = some .timeEvent := by decide

theorem witness_TimeInputCapturesAroundATimeRead :
    lively.slc.timeRead = false ∧ lively.tu.runMark = false ∧ lively.addressed 0 ∧ lively.tu.held = none
    ∧ (after .tinRisingEdge lively).tu.runMark = true ∧ (after .tinRisingEdge lively).tu.latest = some ⟨0, 0⟩
    ∧ (after (.timeRead 0) lively).slc.timeRead = true
    ∧ (after .tinRisingEdge (after (.timeRead 0) lively)).tu.held = some ⟨0, 0⟩ := by decide

theorem witness_ScheduleMatchActsOnItsPorts :
    let s (st : Time) : State :=
      { lively with tu := { lively.tu with st := st, schedule := ⟨true, 1000, .drain, 1⟩ } }
    lively.tu.schedule.armed = false ∧ (s 1000).tu.schedule.armed = true
    ∧ ((s 1000).tu.st - 1000).toNat < 2 ^ 47 ∧ 2 ^ 47 ≤ ((s 999).tu.st - 1000).toNat
    ∧ (lively.link .p0).state = .clear ∧ (lively.link .p1).state ≠ .clear ∧ (lively.link .p1).state ≠ .degraded := by
  decide

theorem witness_IngressRequestsAreDiscardedOrRefused :
    let s : State := { routed with lpc := { routed.lpc with request := some false } }
    served.lpc.request = none ∧ s.lpc.request = some false ∧ s.inService = true ∧ s.image.roleOf = .source
    ∧ (0x80 : Byte).getLsbD 7 = true ∧ (0 : Byte).getLsbD 7 = false
    ∧ (List.replicate 7 (0 : Byte)).length = 7 ∧ (List.replicate 1025 (0 : Byte)).length = 1025
    ∧ (7 : Byte).toNat % 64 = s.image.number ∧ (64 : Byte).toNat % 64 = 0
    ∧ s.rc.entry? ((6 : Byte).toNat % 64) = none ∧ s.rc.entry? ((5 : Byte).toNat % 64) = some entry
    ∧ entry.own < 16777215 := by
  refine ⟨?_, ?_, ?_, ?_, ?_, ?_, ?_, ?_, ?_, ?_, ?_, ?_, ?_⟩ <;> first | (simp only [List.length_replicate]; done) | decide

theorem witness_IngressRequestsAreDiscardedOrRefused_short :
    let s (role : Byte) : State :=
      { served with slc := { served.slc with image := { image with role := role } },
                    lpc := { served.lpc with request := some false } }
    (s 0).lpc.request = some false ∧ (s 0).inService = true ∧ (s 0).image.roleOf = .source
    ∧ (s 1).image.roleOf = .floor ∧ (s 2).image.roleOf = .relay ∧ [(0x80 : Byte)].length < 2
    ∧ (after (.ingressCompletion [0x80] false) (s 1)).lpc.reply = some (.refused .length)
    ∧ (after (.ingressCompletion [0x00] false) (s 1)).lpc.reply = some (.refused .role) := by decide

theorem witness_IngressAcceptedBecomesAMessage :
    let s : State := { routed with lpc := { routed.lpc with request := some false } }
    s.lpc.request = some false ∧ s.inService = true ∧ s.image.roleOf ≠ .relay ∧ (0x80 : Byte).getLsbD 7 = true
    ∧ 8 ≤ payload.length ∧ payload.length ≤ 1024 ∧ (5 : Byte).toNat % 64 ≠ 0
    ∧ (5 : Byte).toNat % 64 ≠ s.image.number ∧ s.rc.entry? ((5 : Byte).toNat % 64) = some entry
    ∧ entry.own < 16777215 ∧ s.fe.pool.length < 256 ∧ s.fe.wf := by decide

theorem witness_OutwardPathDeliversAndReplies :
    let s : State := { buffered with lpc := { buffered.lpc with queue := [0], deliveryReady := true } }
    s.lpc.deliveryReady = true ∧ s.lpc.delivering = none ∧ s.lpc.reply = none ∧ s.lpc.queue = 0 :: []
    ∧ s.fe.buffer? 0 = some (buffer 0) ∧ (s.now - (buffer 0).stamp.ic).toNat ≤ s.image.ageNs
    ∧ (let late : State := { s with tu := { s.tu with ic := 2000001 } }
       late.image.ageNs < (late.now - (buffer 0).stamp.ic).toNat)
    ∧ (after .deliveryReady s).lpc.delivering ≠ none ∧ (after .deliveryReady s).lpc.queue = 0 :: []
    ∧ ({ s.lpc with replySending := true } : LocalPort).replySending = true := by decide

theorem image_sound : ∀ i, 1 ≤ i → i ≤ 35 → image.itemValid i = true := by
  intro i h1 h2
  interval_cases i <;> decide

theorem witness_StartTestsTheImageAndStartsEveryBlock :
    inConfig.addressed 0 ∧ lively.inService = true ∧ inConfig.inService = false ∧ Image.defaults.itemValid 1 = false
    ∧ ({ image with noticeOrder := 6 } : Image).itemValid 35 = false ∧ inConfig.dormant ∧ inConfig.quiet :=
  ⟨by decide, by decide, by decide, by decide, by decide, by intro p; cases p <;> decide,
   fun _ => ⟨by intro p; cases p <;> decide, rfl, rfl, rfl, rfl, rfl, rfl, rfl⟩⟩

/-- The tests of R170 at the ends of their ranges. -/
theorem witness_StartTestsTheImageAndStartsEveryBlock_ranges :
    (∀ x ∈ [(100, true), (10000, true), (150, false), (10100, false)],
      ({ image with hailInterval := BitVec.ofNat 16 x.1 } : Image).itemValid 17 = x.2)
    ∧ (∀ x ∈ [((-121 : Int), false), (-120, true), (119, true), (120, false)],
        ({ image with fade := -128, degrade := BitVec.ofInt 8 x.1 } : Image).itemValid 23 = x.2)
    ∧ ({ image with noticeOrder := 0x3D } : Image).itemValid 35 = true
    ∧ ({ image with noticeOrder := 0x40 } : Image).itemValid 35 = false
    ∧ ({ image with profiles := .replicate 8 ⟨-160, 0⟩ } : Image).itemValid 16 = false
    ∧ ({ image with profiles := .replicate 8 ⟨-160, 0⟩, portEnable := 0x10 } : Image).itemValid 16 = true := by
  decide +kernel

theorem lively_dormant : lively.dormant := by intro p; cases p <;> decide

theorem lively_quiet : lively.quiet := by intro h; exact absurd h (by decide)

theorem witness_RejoinReturnsTheLinksToSeeking :
    lively.addressed 0 ∧ lively.inService = true ∧ lively.dormant ∧ lively.fe.wf ∧ (lively.link .p0).enabled = true
    ∧ lively.tx .p0 = .idle ∧ (lively.setTx .p0 (.hail hail)).tx .p0 ≠ .idle ∧ (lively.link .p1).enabled = false
    ∧ (∀ x ∈ [Reception.traffic 0, .hail 4, .unknownClass, .unstored, .abandonedTraffic 0, .abandonedHail,
        .abandonedUnknown], (lively.setRx .p0 x).rx .p0 = x) :=
  ⟨by decide, by decide, lively_dormant, by decide, by decide, by decide, by decide, by decide, by decide⟩

/-- R40, R43: the HAIL that REJOIN makes due carries the near margin and the port's new state, and forgets the rest. -/
theorem test_rejoin_hail :
    (after (.rejoin 0) lively).tx .p0 = .hail ⟨7, .p0, .source, 0, 0, 40, .seeking, none, []⟩ := by decide

theorem witness_ForceAndScheduleCommandsAct :
    lively.addressed 0 ∧ lively.inService = true ∧ portsOf 0b10010 = [.p1, .p4] ∧ [(1 : Byte)].length < 2
    ∧ ([1, 4].getD 1 0 : Byte).toNat = 4 ∧ ([1, 2].getD 1 0 : Byte) = 2 ∧ (3 : Byte) ≠ 1 ∧ (3 : Byte) ≠ 2 := by decide

theorem witness_TimeCommandsTrimAndStep :
    lively.addressed 0 ∧ (200000 : BitVec 32).toInt = 200000 ∧ (200001 : BitVec 32).toInt = 200001
    ∧ (-200001 : BitVec 32).toInt = -200001 ∧ (1000000000 : BitVec 32).toInt = 1000000000
    ∧ (1000000001 : BitVec 32).toInt = 1000000001 ∧ lively.resetHeld = false ∧ State.reset.resetHeld = true
    ∧ State.reset.addressed 0 := by decide

/-- R23: station time and the trim stand at 0 while the reset pin is held, whatever is commanded. -/
theorem test_time_held_in_reset :
    let t := after (.timeStep 0 5000) (after (.timeTrim 0 300000) State.reset)
    t.tu.st = 0 ∧ t.tu.trim = 0 ∧ t.slc.last = ⟨some ⟨0, 6⟩, .accepted, none⟩ := by decide

theorem witness_ClearCommandsReachTheirScopes :
    lively.addressed 0 ∧ lively.inService = true ∧ inConfig.addressed 0 ∧ inConfig.inService = false
    ∧ portsOf 0b00011 = [.p0, .p1] ∧ 2 * (portsOf 0b00011).length + 1 = 5 ∧ (lively.link .p0).fadeRemainder < 1000
    ∧ ((lively.setLink .p0 { clearLink with fadeRemainder := 1000 }).link .p0).fadeRemainder = 1000 := by decide

/-- R152: a microsecond already reached is counted after the clear. -/
theorem test_clear_before_a_due_accrual :
    let s := lively.setLink .p0 { clearLink with fadeRemainder := 1000 }
    (after (.fadeTimeAccrual .p0) (after (.clearCounters 0 1 false) s)).snu.counter (.port .p0 .fadeTimeUs)
      = ⟨1, false, false⟩ := by decide

theorem witness_ConfigWriteStoresWholeRecords :
    inConfig.addressed 0 ∧ inConfig.inService = false ∧ lively.addressed 0 ∧ lively.inService = true
    ∧ (∀ x ∈ [(1, [(5 : Byte)]), (35, [0]), (9, [0, 0, 0, 0])], 1 ≤ x.1 ∧ x.1 ≤ 35 ∧ x.2.length = itemWidth x.1)
    ∧ 35 < (36 : Byte).toNat ∧ [(1 : Byte)].length < itemWidth (8 : Byte).toNat := by decide

theorem witness_ImageReadsBackWhatWasWritten :
    [(1 : Byte)].length = itemWidth 1 ∧ [(1 : Byte), 2, 3, 4].length = itemWidth 16 ∧ [(1 : Byte)].length = itemWidth 35
    ∧ itemOffset 35 = 75 := by decide

theorem witness_ReadsLatchAndShiftOutTheirData : lively.addressed 0 ∧ inConfig.addressed 0 := by decide

theorem witness_RefusedAndForeignTransfersChangeNothing :
    inConfig.addressed 0 ∧ inConfig.inService = false ∧ lively.slc.timeRead = false
    ∧ serviceDevice? (.disarm 1) = some 1 ∧ (1 : BitVec 2) ≠ lively.slc.deviceCode
    ∧ (after (.timeRead 0) lively).slc.timeRead = true := by decide

theorem witness_TransfersDecodeToTheirCommands :
    (Instr.armSchedule 3 5 2 31).wellFormed = true
    ∧ (encodeTransfer (.armSchedule 3 5 2 31)) = some [0xC0, 0, 4, 0, 0, 0, 0, 0, 5, 2, 31]
    ∧ (Instr.unknownCommand 0 11).wellFormed = true ∧ (Instr.configWrite 1 [1, 9]).wellFormed = true := by decide

theorem witness_FramesSurviveTheLine :
    1 ≤ header.origin ∧ header.origin ≤ 63 ∧ (header.kind = .flood → header.target = 0) ∧ header.kind ≠ .aimed
    ∧ 1 ≤ header.budget ∧ header.hops + header.budget ≤ 31 ∧ header.routeDelay ≤ 4294967295 ∧ 8 ≤ header.length
    ∧ payload.length = header.length ∧ 1 ≤ hail.sender ∧ hail.sender ≤ 63 ∧ inMargin hail.farMargin
    ∧ hail.vector.length ≤ 16 ∧ hail.vector.Pairwise (fun x y => x.1 < y.1)
    ∧ (∀ x ∈ hail.vector, 1 ≤ x.1 ∧ x.1 ≤ 63 ∧ x.2 ≤ 16777215)
    ∧ (let aimed : RouteHeader := { header with kind := .aimed, target := 63 }
       aimed.kind = .aimed ∧ 1 ≤ aimed.target ∧ aimed.target ≤ 63 ∧ 1 ≤ aimed.budget
       ∧ aimed.hops + aimed.budget ≤ 31 ∧ payload.length = aimed.length)
    ∧ (let s := buffered.setTx .p0 (.traffic 0 header)
       s.tx .p0 = .traffic 0 header ∧ s.fe.buffer? 0 = some (buffer 0))
    ∧ (lively.setTx .p0 (.hail hail)).tx .p0 = .hail hail ∧ lively.tx .p0 = .idle := by decide

theorem checkTraffic_aimed :
    let aimed : RouteHeader := { header with kind := .aimed, target := 63 }
    checkTraffic (trafficFrame aimed payload) = some (aimed, payload) := by decide +kernel

/-- R173: the check of a body that ends in 0xCBF43926, least significant byte first. -/
theorem test_frame_bytes :
    (frameBytes ⟨[0x31, 0x32], 0xCBF43926, false⟩) = [0x31, 0x32, 0x26, 0x39, 0xF4, 0xCB] := by decide

/-- `lively` with one command waiting. -/
def waiting : State := { lively with pending := [.deliveryReady] }

/-- The state after that command. -/
def stepped : State := { lively with lpc := { lively.lpc with deliveryReady := true } }

theorem step_waiting : step waiting = .next stepped := rfl

theorem witness_StepKeepsReferencesCounted :
    waiting.fe.wf ∧ waiting.referencesCounted ∧ step waiting = .next stepped :=
  ⟨by decide, fun _ => rfl, step_waiting⟩

theorem witness_StepKeepsDisabledPortsConfigAndSizes :
    waiting.dormant ∧ waiting.quiet ∧ waiting.withinLimits ∧ step waiting = .next stepped :=
  ⟨lively_dormant, lively_quiet, ⟨by intro p; cases p <;> decide, by decide⟩, step_waiting⟩

theorem witness_StepKeepsLinkRecordsLawful :
    (∀ p, (waiting.link p).lawful) ∧ step waiting = .next stepped :=
  ⟨by intro p; cases p <;> decide, step_waiting⟩

theorem witness_StepKeepsMarginsAndHoldDurations :
    waiting.dormant ∧ (∀ p, (waiting.link p).marginsAgree waiting.image (fibrePort p))
    ∧ (waiting.inService = true → waiting.image.holdBaseMs ≤ waiting.image.holdMaxMs)
    ∧ (∀ p, (waiting.link p).holdWithin waiting.image) ∧ step waiting = .next stepped :=
  ⟨lively_dormant, by intro p; cases p <;> decide, by decide, by intro p; cases p <;> decide, step_waiting⟩

theorem witness_StepKeepsRoutesCheapestAndIdleQueuesEmpty :
    waiting.dormant ∧ waiting.quiet ∧ waiting.costsSettled ∧ waiting.idleQueuesEmpty ∧ step waiting = .next stepped :=
  ⟨lively_dormant, lively_quiet, rfl, by intro p; cases p <;> decide, step_waiting⟩

theorem witness_StepKeepsSeenTableLawful :
    waiting.dormant ∧ waiting.quiet ∧ waiting.seenLawful ∧ step waiting = .next stepped :=
  ⟨lively_dormant, lively_quiet, by decide, step_waiting⟩

theorem witness_CommandsLeaveWhatIsNotTheirs :
    exec .deliveryReady lively = .next stepped ∧ lively.inService = true
    ∧ (({ lively.snu with notices := lively.snu.notices.raiseBit .linkUp 0 } : Statistics).notices.get
        .linkUp).pending = true
    ∧ ((lively.snu.setCounter (.port .p0 .won) ⟨0, true, true⟩).counter (.port .p0 .won)).rollover = true :=
  ⟨rfl, by decide, by decide, by decide⟩

end Sys2Proof.Tests
end

