-- ==== Sys2Proof/Proofs/Margins.lean ====
section
/-! The raw margin of a status word by cases (R62), and the floor of a 2^k-th of a difference by which smoothing moves
the near margin (R63). -/

namespace Sys2Proof.Machine

/-! ### The raw margin -/

theorem clampMargin_of_lt {x : Int} (h : x < -128) : clampMargin x = -128 := by
  unfold clampMargin; omega

theorem clampMargin_of_gt {x : Int} (h : 127 < x) : clampMargin x = 127 := by
  unfold clampMargin; omega

theorem clampMargin_of_inMargin {x : Int} (h : inMargin x) : clampMargin x = x := by
  obtain ⟨hlow, hhigh⟩ := h
  unfold clampMargin; omega

theorem rawMargin_of_unlocked (g : Image) {w : StatusWord} (h : w.lock = false) : rawMargin g w = -128 := by
  simp [rawMargin, h]

theorem rawMargin_of_unused {g : Image} {w : StatusWord} (h : (g.profile w.profile).rate = 0) :
    rawMargin g w = -128 := by
  simp [rawMargin, h]

theorem rawMargin_of_used {g : Image} {w : StatusWord} (hl : w.lock = true) (hr : (g.profile w.profile).rate ≠ 0) :
    rawMargin g w = clampMargin (w.rsl - (g.profile w.profile).threshold.toInt) := by
  simp only [rawMargin, hl, hr, Bool.not_true, Bool.false_eq_true, if_false]

/-! ### Smoothing -/

/-- The step of the near margin at a difference `d` from the raw margin: the floor of its 2^k-th. -/
def marginStep (k : Nat) (d : Int) : Int := d / 2 ^ k

theorem smooth_some (k : Nat) (m raw : Int) : smooth k (some m) raw = m + marginStep k (raw - m) := by
  simp [smooth, marginStep]

theorem marginStep_mul_le (k : Nat) (d : Int) : marginStep k d * 2 ^ k ≤ d :=
  Int.ediv_mul_le d (by positivity)

theorem lt_marginStep_add_one_mul (k : Nat) (d : Int) : d < (marginStep k d + 1) * 2 ^ k :=
  Int.lt_ediv_add_one_mul_self d (by positivity)

/-- A raw margin below the near margin pulls it down by at least one half-dB, the floor being toward minus infinity,
and by no more than the difference. -/
theorem marginStep_of_neg (k : Nat) {d : Int} (h : d < 0) : d ≤ marginStep k d ∧ marginStep k d < 0 := by
  have hpow : (1 : Int) ≤ 2 ^ k := one_le_pow₀ (by decide)
  have hmul : d * 2 ^ k ≤ d := by nlinarith only [h, hpow]
  exact ⟨Int.le_ediv_of_mul_le (by positivity) hmul, Int.ediv_neg_of_neg_of_pos h (by positivity)⟩

theorem marginStep_of_nonneg (k : Nat) {d : Int} (h : 0 ≤ d) : 0 ≤ marginStep k d ∧ marginStep k d ≤ d :=
  ⟨Int.ediv_nonneg h (by positivity), Int.ediv_le_self _ h⟩

theorem smooth_of_raw_lt (k : Nat) {m raw : Int} (h : raw < m) :
    raw ≤ m + marginStep k (raw - m) ∧ m + marginStep k (raw - m) < m := by
  obtain ⟨hle, hneg⟩ := marginStep_of_neg k (show raw - m < 0 by omega)
  omega

theorem smooth_of_le_raw (k : Nat) {m raw : Int} (h : m ≤ raw) :
    m ≤ m + marginStep k (raw - m) ∧ m + marginStep k (raw - m) ≤ raw := by
  obtain ⟨hnonneg, hle⟩ := marginStep_of_nonneg k (show 0 ≤ raw - m by omega)
  omega

/-- The smoothed margin lies between the near margin and the raw margin, so it stays in their range. -/
theorem smooth_inMargin (k : Nat) {m raw : Int} (hm : inMargin m) (hr : inMargin raw) :
    inMargin (m + marginStep k (raw - m)) := by
  obtain ⟨hmlow, hmhigh⟩ := hm
  obtain ⟨hrlow, hrhigh⟩ := hr
  rcases lt_or_ge raw m with h | h
  · obtain ⟨hlow, hhigh⟩ := smooth_of_raw_lt k h
    constructor <;> omega
  · obtain ⟨hlow, hhigh⟩ := smooth_of_le_raw k h
    constructor <;> omega

/-- Settles O26: the raw margin by the word's three cases, the near margin by the sign of the difference. -/
theorem statusWordsMoveTheNearMargin : Obligations.StatusWordsMoveTheNearMargin := by
  unfold Obligations.StatusWordsMoveTheNearMargin
  refine ⟨fun g w => ⟨rawMargin_of_unlocked g, fun _ => rawMargin_of_unused, fun hl hr => ?_⟩,
    fun k raw => ⟨rfl, fun m => ⟨marginStep k (raw - m), smooth_some k m raw, marginStep_mul_le k _,
      lt_marginStep_add_one_mul k _, smooth_of_raw_lt k, smooth_of_le_raw k, smooth_inMargin k⟩⟩⟩
  rw [rawMargin_of_used hl hr]
  exact ⟨clampMargin_of_lt, clampMargin_of_gt, fun hlow hhigh => clampMargin_of_inMargin ⟨hlow, hhigh⟩⟩

end Sys2Proof.Machine
end

/-! The cost via a port by cases (R88, R89), and the choice of the best and second port with its ties (R90). -/

namespace Sys2Proof.Machine

open Config (unreachable costCap)

/-! ### The cost via a port -/

theorem LinkState.usable_iff (s : LinkState) : s.usable = true ↔ s = .clear ∨ s = .degraded := by
  cases s <;> decide

theorem lineRate_eq (g : Image) (p : Port) (r : LinkRecord) :
    lineRate g p r = if p = .p4 then g.fibreRate.toNat else (g.profile r.profile).rate.toNat := by
  cases p <;> rfl

@[simp] theorem serialization_zero (g : Image) : serialization g 0 = none := rfl

/-- The serialization term is the one whole number `m` with `(REFLEN + 40) × 8,000 / rate ≤ m`, less than one above
it (R88). -/
theorem serialization_of_ceil {g : Image} {rate m : Nat} (hrate : 0 < rate)
    (hle : (g.refLen.toNat + 40) * 8000 ≤ m * rate) (hlt : m * rate < (g.refLen.toNat + 40) * 8000 + rate) :
    serialization g rate = some m := by
  have hdiv : ((g.refLen.toNat + 40) * 8000 + (rate - 1)) / rate = m := by
    refine Nat.div_eq_of_lt_le (by omega) ?_
    rw [Nat.add_one_mul m rate]
    omega
  rw [serialization, if_neg (by omega), hdiv]

theorem portTerm_of_not_usable {g : Image} {p : Port} {r : LinkRecord} (h : ¬ r.state.usable = true) :
    portTerm g p r = none := if_neg h

theorem portTerm_of_rate_zero {g : Image} {p : Port} {r : LinkRecord} (h : lineRate g p r = 0) :
    portTerm g p r = none := by
  rw [portTerm, h, serialization_zero]
  cases r.delay <;> exact ite_self none

theorem portTerm_of_usable {g : Image} {p : Port} {r : LinkRecord} {d s : Nat} (h : r.state.usable = true)
    (hd : r.delay = some d) (hs : serialization g (lineRate g p r) = some s) :
    portTerm g p r = some (d + s + (if r.state = .degraded then g.degradePenalty.toNat else 0)) := by
  rw [portTerm, if_pos h, hd, hs]

@[simp] theorem viaCost_none (h : Nat) : viaCost none h = unreachable := rfl

@[simp] theorem viaCost_unreachable (t : Option Nat) : viaCost t unreachable = unreachable := by
  cases t with
  | none => rfl
  | some t => simp [viaCost]

theorem viaCost_some_of_lt (t : Nat) {h : Nat} (hh : h < unreachable) : viaCost (some t) h = min (h + t) costCap :=
  if_neg (by omega)

/-- Settles O32: the cost via a port is read from its term, and the term by the cases of the link record. -/
theorem costViaAPortFollowsItsLink : Obligations.CostViaAPortFollowsItsLink := by
  unfold Obligations.CostViaAPortFollowsItsLink
  intro e g lm p
  dsimp only
  rw [e.via_get g lm p, ← lineRate_eq]
  refine ⟨fun hclear hdegraded => ?_, fun hrate => ?_, fun hheard => ?_, fun d m hstate hd hrate hheard hle hlt => ?_⟩
  · have hu : ¬ (lm.get p).state.usable = true := by
      rw [LinkState.usable_iff]
      exact not_or.2 ⟨hclear, hdegraded⟩
    rw [portTerm_of_not_usable hu]
    rfl
  · rw [portTerm_of_rate_zero hrate]
    rfl
  · rw [hheard]
    exact viaCost_unreachable _
  · have hs := serialization_of_ceil hrate hle hlt
    rw [portTerm_of_usable ((LinkState.usable_iff _).2 hstate) hd hs, viaCost_some_of_lt _ hheard, ← Nat.add_assoc,
      ← Nat.add_assoc]
    rfl

/-! ### The lowest cost, ties to the lowest index -/

theorem lowest_concat (v : PerPort Nat) (l : List Port) (x : Port) :
    lowest v (l ++ [x]) = better v (lowest v l) x := by
  simp [lowest]

/-- The next port displaces the one found so far only with a strictly lower cost. -/
theorem better_eq_some {v : PerPort Nat} {b : Option Port} {x p : Port} (h : better v b x = some p) :
    b = some p ∨ x = p ∧ v.get p < unreachable ∧ ∀ q ∈ b, v.get p < v.get q := by
  simp only [better] at h
  split at h
  case isTrue => exact .inl h
  case isFalse hx =>
    cases b with
    | none =>
      obtain rfl := Option.some.inj h
      exact .inr ⟨rfl, by omega, by simp⟩
    | some q =>
      simp only at h
      split at h
      case isTrue hq =>
        obtain rfl := Option.some.inj h
        exact .inr ⟨rfl, by omega, by simpa using hq⟩
      case isFalse => exact .inl h

/-- Of ports listed in ascending order, those before the chosen one are strictly dearer: it displaced them, and no
later port of the same cost displaces it. -/
theorem lowest_lt_of_toNat_lt {v : PerPort Nat} {p : Port} (l : List Port)
    (hl : l.Pairwise (fun q r => q.toNat < r.toNat)) (h : lowest v l = some p) :
    ∀ q ∈ l, q.toNat < p.toNat → v.get p < v.get q := by
  induction l using List.reverseRecOn with
  | nil => simp
  | append_singleton l x ih =>
    obtain ⟨hasc, -, hlast⟩ := List.pairwise_append.1 hl
    intro q hq hqp
    rw [List.mem_append, List.mem_singleton] at hq
    rw [lowest_concat] at h
    rcases better_eq_some h with hold | ⟨rfl, hlow, hb⟩
    · obtain ⟨hp, -, -⟩ := lowest_spec hold
      rcases hq with hq | rfl
      · exact ih hasc hold q hq hqp
      · have := hlast p hp q (List.mem_singleton_self q)
        omega
    · have hq : q ∈ l := hq.resolve_right (by rintro rfl; omega)
      cases hbest : lowest v l with
      | none => exact hlow.trans_le ((lowest_eq_none v l).1 hbest q hq)
      | some c => exact (hb c hbest).trans_le ((lowest_spec hbest).2.2 q hq)

theorem Port.all_ascending : Port.all.Pairwise (fun q r => q.toNat < r.toNat) := by decide

/-! ### The choice of an entry -/

theorem CostEntry.choose_best (e : CostEntry) (v : PerPort Nat) : (e.choose v).best = lowest v Port.all := rfl

theorem CostEntry.choose_best_eq_none (e : CostEntry) (v : PerPort Nat) :
    (e.choose v).best = none ↔ ∀ q, unreachable ≤ v.get q := by
  rw [e.choose_best, lowest_eq_none]
  exact ⟨fun h q => h q (Port.mem_all q), fun h q _ => h q⟩

theorem CostEntry.choose_own (e : CostEntry) (v : PerPort Nat) : (e.choose v).own = costOf v (e.choose v).best := rfl

theorem CostEntry.choose_secondCost (e : CostEntry) (v : PerPort Nat) :
    (e.choose v).secondCost = costOf v (e.choose v).second := rfl

theorem CostEntry.choose_second_of_no_best {e : CostEntry} {v : PerPort Nat} (h : (e.choose v).best = none) :
    (e.choose v).second = none := by
  rw [e.choose_best] at h
  simp [CostEntry.choose, h]

theorem CostEntry.choose_second {e : CostEntry} {v : PerPort Nat} {p : Port} (h : (e.choose v).best = some p) :
    (e.choose v).second = lowest v (Port.all.filter (· ≠ p)) := by
  rw [e.choose_best] at h
  simp [CostEntry.choose, h]

theorem mem_all_filter_ne (p q : Port) : q ∈ Port.all.filter (· ≠ p) ↔ q ≠ p := by
  simp [Port.mem_all q]

theorem CostEntry.best_cheapest {e : CostEntry} {v : PerPort Nat} {p : Port} (h : (e.choose v).best = some p) :
    v.get p < unreachable ∧ ∀ q, v.get p ≤ v.get q ∧ (q.toNat < p.toNat → v.get p < v.get q) := by
  rw [e.choose_best] at h
  obtain ⟨-, hlow, hle⟩ := lowest_spec h
  exact ⟨hlow, fun q => ⟨hle q (Port.mem_all q), lowest_lt_of_toNat_lt _ Port.all_ascending h q (Port.mem_all q)⟩⟩

theorem CostEntry.second_eq_none_iff {e : CostEntry} {v : PerPort Nat} {p : Port} (h : (e.choose v).best = some p) :
    (e.choose v).second = none ↔ ∀ q, q ≠ p → unreachable ≤ v.get q := by
  rw [CostEntry.choose_second h, lowest_eq_none]
  simp only [mem_all_filter_ne]

theorem CostEntry.second_cheapest {e : CostEntry} {v : PerPort Nat} {p x : Port} (h : (e.choose v).best = some p)
    (hx : (e.choose v).second = some x) :
    x ≠ p ∧ v.get x < unreachable ∧ ∀ q, q ≠ p → v.get x ≤ v.get q ∧ (q.toNat < x.toNat → v.get x < v.get q) := by
  rw [CostEntry.choose_second h] at hx
  obtain ⟨hmem, hlow, hle⟩ := lowest_spec hx
  have hties := lowest_lt_of_toNat_lt _ (Port.all_ascending.filter _) hx
  simp only [mem_all_filter_ne] at hmem hle hties
  exact ⟨hmem, hlow, fun q hq => ⟨hle q hq, hties q hq⟩⟩

/-! ### The recompute of an entry -/

theorem CostEntry.isOwn_iff (e : CostEntry) (g : Image) :
    e.isOwn g = true ↔ g.isEnd = true ∧ e.destination = g.number := by
  simp [CostEntry.isOwn]

theorem CostEntry.recompute_of_own {e : CostEntry} {g : Image} (lm : PerPort LinkRecord) (h : e.isOwn g = true) :
    e.recompute g lm = { e with own := 0, best := none, second := none, secondCost := unreachable } := if_pos h

theorem CostEntry.recompute_of_not_own {e : CostEntry} {g : Image} (lm : PerPort LinkRecord)
    (h : ¬ e.isOwn g = true) : e.recompute g lm = e.choose (e.via g lm) := if_neg h

/-- Settles O33: the own entry by its equation, every other by the two choices of lowest cost. -/
theorem recomputeChoosesTheCheapestPorts : Obligations.RecomputeChoosesTheCheapestPorts := by
  unfold Obligations.RecomputeChoosesTheCheapestPorts
  intro e g lm
  refine ⟨e.recompute_destination g lm, e.recompute_heard g lm, fun hend hdest => ?_, fun hother => ?_⟩
  · rw [CostEntry.recompute_of_own lm ((e.isOwn_iff g).2 ⟨hend, hdest⟩)]
    exact ⟨rfl, rfl, rfl, rfl⟩
  · have hnot : ¬ e.isOwn g = true := by
      rw [e.isOwn_iff, not_and_or, Bool.not_eq_true]
      exact hother
    rw [CostEntry.recompute_of_not_own lm hnot]
    generalize e.via g lm = v
    refine ⟨e.choose_best_eq_none v, fun hnone => ?_, fun hnone => ?_, fun p hp => ?_⟩
    · have hsecond := CostEntry.choose_second_of_no_best hnone
      rw [e.choose_own, e.choose_secondCost, hnone, hsecond]
      exact ⟨rfl, rfl, rfl⟩
    · rw [e.choose_secondCost, hnone]
      rfl
    · obtain ⟨hlow, hcheapest⟩ := CostEntry.best_cheapest hp
      refine ⟨by rw [e.choose_own, hp]; rfl, hlow, hcheapest, CostEntry.second_eq_none_iff hp, fun x hx => ?_⟩
      obtain ⟨hne, hxlow, hxcheapest⟩ := CostEntry.second_cheapest hp hx
      exact ⟨hne, by rw [e.choose_secondCost, hx]; rfl, hxlow, hxcheapest⟩

end Sys2Proof.Machine

/-! The sequence test by the verdict it gives (R105, R106), and which sequences a window marks after a mark is added. -/

namespace Sys2Proof.Machine

/-! ### The marks of a window -/

/-- Marks move with the window, those pushed past its end are dropped, and the new H is marked (R105). -/
theorem getLsbD_shiftWindow (w : BitVec 512) (d : Nat) {i : Nat} (hi : i < 512) :
    (shiftWindow w d).getLsbD i = (decide (i = 0) || (decide (d ≤ i) && w.getLsbD (i - d))) := by
  have hone : (1#512).getLsbD i = decide (i = 0) := by simp [BitVec.getLsbD_one]
  have hshift : (w <<< d).getLsbD i = (decide (d ≤ i) && w.getLsbD (i - d)) := by
    rw [BitVec.getLsbD_shiftLeft, decide_eq_true hi, Bool.true_and, ← decide_not, decide_eq_decide.2 Nat.not_lt]
  rw [shiftWindow, BitVec.getLsbD_or, hone, hshift, Bool.or_comm]

/-- A late FIRST adds its own mark and moves none (R106). -/
theorem getLsbD_mark (w : BitVec 512) (b : Nat) {i : Nat} (hi : i < 512) :
    (w ||| (1#512 <<< b)).getLsbD i = (decide (i = b) || w.getLsbD i) := by
  have hmark : (1#512 <<< b).getLsbD i = decide (i = b) := by
    rw [← BitVec.twoPow_eq, BitVec.getLsbD_twoPow, ← Bool.decide_and, decide_eq_decide]
    omega
  rw [BitVec.getLsbD_or, hmark, Bool.or_comm]

/-! ### The verdict by the place of the sequence -/

/-- A sequence that is not H lies as far behind it as remains of the circle (R106). -/
theorem toNat_sub_of_sub_ne_zero {h q : BitVec 16} (hne : (q - h).toNat ≠ 0) :
    (h - q).toNat = 65536 - (q - h).toNat := by
  bv_omega

section
variable {t : Slot} {q : BitVec 16} (now : Time)

theorem Slot.judge_of_eq (h : (q - t.highest).toNat = 0) :
    t.judge q now = (.dup, { t with lastHeard := now }) := if_pos h

theorem Slot.judge_of_ahead (hpos : 1 ≤ (q - t.highest).toNat)
    (hle : (q - t.highest).toNat ≤ 32767) :
    t.judge q now = (.first, { t with highest := q, window := shiftWindow t.window (q - t.highest).toNat,
                                      lastHeard := now }) := by
  rw [Slot.judge, if_neg (by omega), if_pos (by omega)]

/-- Of a sequence behind H the verdict is read from the window alone (R106). -/
theorem Slot.judge_of_behind (h : 32768 ≤ (q - t.highest).toNat) :
    t.judge q now =
      (let back := 65536 - (q - t.highest).toNat
       if back < windowSize then
         if t.window.getLsbD back then (.dup, { t with lastHeard := now })
         else (.first, { t with window := t.window ||| (1#512 <<< back), lastHeard := now })
       else (.stale, t)) := by
  rw [Slot.judge, if_neg (by omega), if_neg (by omega), toNat_sub_of_sub_ne_zero (by omega)]

theorem Slot.judge_of_marked (h : 32768 ≤ (q - t.highest).toNat)
    (hback : 65536 - (q - t.highest).toNat ≤ 511)
    (hmark : t.window.getLsbD (65536 - (q - t.highest).toNat) = true) :
    t.judge q now = (.dup, { t with lastHeard := now }) := by
  rw [Slot.judge_of_behind now h]
  exact (if_pos (Nat.lt_succ_of_le hback)).trans (if_pos hmark)

theorem Slot.judge_of_unmarked (h : 32768 ≤ (q - t.highest).toNat)
    (hback : 65536 - (q - t.highest).toNat ≤ 511)
    (hmark : t.window.getLsbD (65536 - (q - t.highest).toNat) = false) :
    t.judge q now = (.first, { t with window := t.window ||| (1#512 <<< (65536 - (q - t.highest).toNat)),
                                      lastHeard := now }) := by
  rw [Slot.judge_of_behind now h]
  exact (if_pos (Nat.lt_succ_of_le hback)).trans (if_neg (Bool.eq_false_iff.1 hmark))

theorem Slot.judge_of_beyond (h : 32768 ≤ (q - t.highest).toNat)
    (hback : 512 ≤ 65536 - (q - t.highest).toNat) : t.judge q now = (.stale, t) := by
  rw [Slot.judge_of_behind now h]
  exact if_neg (Nat.not_lt.2 hback)

end

/-- Settles O11: the verdict by the place of the sequence, and the marks of the window that each FIRST leaves. -/
theorem sequenceTestJudgesAgainstWindow : Obligations.SequenceTestJudgesAgainstWindow := by
  unfold Obligations.SequenceTestJudgesAgainstWindow
  intro t q now
  refine ⟨Slot.judge_of_eq now, fun hpos hle => ?ahead, Slot.judge_of_marked now, fun h hback hmark => ?late,
    Slot.judge_of_beyond now⟩
  case ahead =>
    rw [Slot.judge_of_ahead now hpos hle]
    exact ⟨rfl, rfl, fun i => getLsbD_shiftWindow t.window _⟩
  case late =>
    rw [Slot.judge_of_unmarked now h hback hmark]
    exact ⟨rfl, rfl, fun i => getLsbD_mark t.window _⟩

end Sys2Proof.Machine

/-! What a step is made of: every command's effect is a chain of a few kinds of moves, so that a law of the state which
each kind keeps is kept by every step. -/

namespace Sys2Proof.Machine

open Relation (ReflTransGen)

/-! ### Moves that touch no law -/

/-- The Time Unit's counts, fraction and trim within their ranges (R23, R28, R31). -/
def TimeUnit.inLimits (t : TimeUnit) : Prop :=
  t.edgesSeen ≤ 65535 ∧ t.missed ≤ 255 ∧ t.frac < fracUnit ∧ -trimLimit ≤ t.trim ∧ t.trim ≤ trimLimit

/-- A change of records that no law of the state reads: clocks, captures, results, outputs, counters, notices, the
reply, race statistics and fade time. -/
structure Bookkeeping (s t : State) : Prop where
  li : t.li = s.li := by rfl
  link : ∀ p, t.link p = { s.link p with fadeRemainder := (t.link p).fadeRemainder } := by exact fun _ => rfl
  remainder : ∀ p, (s.link p).state = .off → (s.link p).fadeRemainder = 0 → (t.link p).fadeRemainder = 0 := by
    exact fun _ _ h => h
  rc : t.rc = s.rc := by rfl
  fe : t.fe = s.fe := by rfl
  own : t.af.own = s.af.own := by rfl
  slots : t.af.slots = s.af.slots := by rfl
  ring : t.af.ring = s.af.ring := by rfl
  nextSequence : t.lpc.nextSequence = s.lpc.nextSequence := by rfl
  deliveries : t.lpc.queue = s.lpc.queue := by rfl
  delivering : t.lpc.delivering = s.lpc.delivering := by rfl
  image : t.image = s.image := by rfl
  inService : t.inService = s.inService := by rfl
  armed : s.inService = false → t.tu.schedule.armed = true → s.tu.schedule.armed = true := by exact fun _ h => h
  limits : s.tu.inLimits → t.tu.inLimits := by exact fun h => h

theorem Bookkeeping.refl (s : State) : Bookkeeping s s := {}

theorem Bookkeeping.count (s : State) (c : CounterName) : Bookkeeping s (s.count c) := {}

theorem Bookkeeping.countIf (s : State) (b : Bool) (c : CounterName) : Bookkeeping s (s.countIf b c) := by
  cases b
  · exact .refl s
  · exact .count s c

theorem Bookkeeping.raiseBit (s : State) (k : NoticeKind) (i : Nat) : Bookkeeping s (s.raiseBit k i) := {}

theorem Bookkeeping.setResult (s : State) (n : TransferName) (r : Result) (f : Option Nat) :
    Bookkeeping s (s.setResult n r f) := {}

theorem Bookkeeping.accept (s : State) (c : Byte) : Bookkeeping s (s.accept c) := {}

theorem Bookkeeping.read (s : State) (d : List Byte) (n : Nat) : Bookkeeping s (s.read d n) := {}

theorem Bookkeeping.drew (s : State) : Bookkeeping s s.drew := {}

theorem Bookkeeping.sendReply (s : State) : Bookkeeping s s.sendReply := by
  simp only [State.sendReply]
  split
  · exact {}
  · exact .refl s

theorem Bookkeeping.replyDue (s : State) (r : Reply) : Bookkeeping s (s.replyDue r) := by
  simp only [State.replyDue, State.sendReply]
  split
  · exact {}
  · exact {}

theorem Bookkeeping.applyCapture (s : State) (c : Stamp) : Bookkeeping s (s.applyCapture c) := by
  simp only [State.applyCapture]
  split
  · exact {}
  · exact {}

theorem Bookkeeping.endTimeRead (s : State) (n : Nat) : Bookkeeping s (s.endTimeRead n) := by
  obtain ⟨tu, out, tr, ns, h, -, -, hfrac, htrim, hsched, hedges, hmissed⟩ := s.endTimeRead_frame n
  rw [h]
  exact { armed := fun _ ha => by rw [← hsched]; exact ha
          limits := fun hl => by
            rw [TimeUnit.inLimits] at hl ⊢
            rwa [hfrac, htrim, hedges, hmissed] }

theorem Bookkeeping.disarm (s : State) : Bookkeeping s { s with tu := s.tu.disarm } :=
  { armed := fun _ h => Bool.noConfusion h }

theorem Bookkeeping.adjustTime (s : State) {f : TimeUnit → TimeUnit} (harm : (f s.tu).schedule = s.tu.schedule)
    (hlim : s.tu.inLimits → (f s.tu).inLimits) : Bookkeeping s (s.adjustTime f) := by
  obtain ⟨-, h⟩ | ⟨-, h⟩ := s.adjustTime_cases f <;> rw [h]
  · exact .refl s
  · exact { armed := fun _ ha => by rw [← harm]; exact ha
            limits := hlim }

theorem clampTrim_bounds (x : Int) : -trimLimit ≤ clampTrim x ∧ clampTrim x ≤ trimLimit := by
  unfold clampTrim trimLimit
  omega

theorem Bookkeeping.timeTrim (s : State) (x : Int) :
    Bookkeeping s (s.adjustTime (fun t => { t with trim := clampTrim x })) := by
  refine .adjustTime s rfl fun ⟨hedges, hmissed, hfrac, _, _⟩ => ?_
  obtain ⟨hlow, hhigh⟩ := clampTrim_bounds x
  exact ⟨hedges, hmissed, hfrac, hlow, hhigh⟩

/-- Time of fading taken off or cleared from a remainder. -/
theorem Bookkeeping.setRemainder (s : State) (p : Port) (n : Nat)
    (h : (s.link p).fadeRemainder = 0 → n = 0) : Bookkeeping s (s.setLink p { s.link p with fadeRemainder := n }) := by
  have hlink : ∀ q, (s.setLink p { s.link p with fadeRemainder := n }).link q
      = if q = p then { s.link p with fadeRemainder := n } else s.link q := by
    intro q
    by_cases hq : q = p
    · subst hq; simp
    · simp [State.setLink_link_of_ne, hq]
  refine { link := fun q => ?_, remainder := fun q _ h0 => ?_ }
  · rw [hlink]
    split
    · next e => subst e; rfl
    · rfl
  · rw [hlink]
    split
    · next e => subst e; exact h h0
    · exact h0

theorem Bookkeeping.clearScope (s : State) (scope : Scope) : Bookkeeping s (s.clearScope scope) := by
  cases scope with
  | station => exact {}
  | port p =>
    have h := Bookkeeping.setRemainder s p ((s.link p).fadeRemainder - (s.link p).fadeRemainder % fadeUnit) (by omega)
    exact { h with }

theorem Bookkeeping.tinEdge (s : State) {t : State} (h : execTinRisingEdge s = .next t) : Bookkeeping s t := by
  simp only [execTinRisingEdge, Host.Outcome.next.injEq] at h
  subst h
  have hedges : ∀ n, min 65535 (n + 1) ≤ 65535 := fun n => Nat.min_le_left _ _
  have hmissed : ∀ n, n ≤ 255 → (if s.tu.held.isSome then min 255 (n + 1) else n) ≤ 255 := by
    intro n hn; split <;> omega
  split
  · exact { limits := fun ⟨_, hm, hrest⟩ => ⟨hedges _, hmissed _ hm, hrest⟩ }
  · simp only [State.applyCapture]
    split
    · exact { limits := fun ⟨_, hrest⟩ => ⟨hedges _, hrest⟩ }
    · exact { limits := fun ⟨_, hrest⟩ => ⟨hedges _, hrest⟩ }

theorem LinkRecord.accrue_frame (r : LinkRecord) (d : Nat) :
    r.accrue d = { r with fadeRemainder := (r.accrue d).fadeRemainder } := by
  simp only [LinkRecord.accrue]
  split <;> rfl

theorem State.advance_link (s : State) (d : Nat) (p : Port) : (s.advance d).link p = (s.link p).accrue d := by
  cases p <;> rfl

theorem Bookkeeping.tick (s : State) : Bookkeeping s s.tick := by
  simp only [State.tick]
  split
  · exact .refl s
  · exact { link := fun p => by
              show (s.advance Config.tickNs).link p = _
              rw [State.advance_link]
              refine (LinkRecord.accrue_frame _ _).trans ?_
              rw [← State.advance_link]
              rfl
            remainder := fun p hoff h0 => by
              show ((s.advance Config.tickNs).link p).fadeRemainder = 0
              rw [State.advance_link]
              simp [LinkRecord.accrue, hoff, LinkState.fading, h0]
            limits := fun ⟨hedges, hmissed, _, htrim⟩ => ⟨hedges, hmissed, Nat.mod_lt _ (by decide), htrim⟩ }

/-! ### Moves -/

/-- One of the moves that commands are made of, each with what the command has made sure of before it. -/
inductive Move : State → State → Prop
  | bookkeeping {s t : State} (h : Bookkeeping s t) : Move s t
  | powerOn {s t : State} (h : execPowerOn s = .next t) : Move s t
  | select (s : State) (p : Port) : Move s (s.select p)
  | deliver (s : State) : Move s s.tryDeliver
  | claim {s : State} {p : Port} (hf : s.follows p = true) (hrx : s.rx p = .idle) : Move s (s.beginTraffic p)
  | receive {s : State} {p : Port} (x : Reception) (hx : ∀ i, x.holds i = 0) (hf : s.follows p = true)
      (hrx : s.rx p = .idle) : Move s (s.setRx p x)
  | endReception {s : State} {p : Port} (hrx : ∀ i, (s.rx p).holds i = 0) : Move s (s.setRx p .idle)
  | endTraffic {s : State} {p : Port} {i : Nat} (f : Frame) (hrx : s.rx p = .traffic i) :
      Move s ((s.setRx p .idle).endTraffic p i f)
  | dropTraffic {s : State} {p : Port} {i : Nat} (hrx : s.rx p = .abandonedTraffic i) :
      Move s ((s.setRx p .idle).release i)
  | hail {s : State} {p : Port} {a : Time} {f : Frame} {h : Hail} (hrx : s.rx p = .hail a)
      (hc : checkHail f = some h) : Move s (((s.setRx p .idle).count (.port p .hailRx)).hail p a h)
  | statusWord {s : State} {p : Port} {word : List Byte} {w : StatusWord} (hf : s.follows p = true)
      (hp : fibrePort p = false) (hw : StatusWord.read word = some w) : Move s (s.statusWord p w)
  | hailDeparted {s : State} {p : Port} {h : Hail} (htx : s.tx p = .hail h) : Move s (s.setTx p .idle)
  | trafficDeparted {s : State} {p : Port} {i : Nat} {h : RouteHeader} (htx : s.tx p = .traffic i h) :
      Move s ((s.release i).setTx p .idle)
  | hailTimer {s : State} {p : Port} (he : (s.link p).hailExpired s.image s.now = true) :
      Move s (s.setLink p { s.link p with
        hailTimer := (s.link p).hailTimer.map (· + BitVec.ofNat 48 s.image.hailNs), hailDue := true })
  | silent {s : State} {p : Port} (he : (s.link p).silenceExpired s.image s.now = true) : Move s (s.silent p)
  | timer {s : State} {p : Port} {k : TimerKind} (he : (s.link p).timerExpired k s.now = true) : Move s (s.timerEvent p)
  | settle {s : State} {p : Port} (he : (s.link p).timerExpired .settle s.now = true) : Move s (s.settleEvent p)
  | act (s : State) (a : Port × Action) : Move s (s.act a)
  | ingress {s : State} {q : IngressRequest} {i : Nat} {fe : Forwarding} (hs : s.inService = true)
      (hg : s.fe.grant s.tu.stamp .loc (s.ingressHeader q) q.payload = some (i, fe)) :
      Move s ((({ s with fe := fe, af := s.af.ingress s.lpc.nextSequence s.now }.advanceSequence).copiesOf i).1.release i)
  | delivered {s : State} (hd : s.lpc.delivering.isSome = true) :
      Move s { s.dropDeliveryHead with lpc := { s.dropDeliveryHead.lpc with delivering := none } }
  | start {s : State} (hs : s.inService = false) (hg : s.image.firstFailing = none) : Move s s.startBlocks
  | rejoin {s : State} (hs : s.inService = true) : Move s s.rejoinBlocks.recompute
  | configure {s : State} (g : Image) (hs : s.inService = false) : Move s { s with slc := { s.slc with image := g } }

/-- A chain of moves. -/
abbrev Moves : State → State → Prop := ReflTransGen Move

theorem Move.moves {s t : State} (h : Move s t) : Moves s t := .single h

theorem Bookkeeping.moves {s t : State} (h : Bookkeeping s t) : Moves s t := .single (.bookkeeping h)

theorem Moves.trans {s t u : State} (h : Moves s t) (h' : Moves t u) : Moves s u := ReflTransGen.trans h h'

/-- A chain of moves, with bookkeeping at its end. -/
theorem Moves.then {s t u : State} (h : Moves s t) (hb : Bookkeeping t u) : Moves s u := h.tail (.bookkeeping hb)

theorem Moves.foldl {α : Type} {f : State → α → State} (hf : ∀ s a, Move s (f s a)) (l : List α) :
    ∀ s, Moves s (l.foldl f s) := by
  induction l with
  | nil => exact fun s => .refl
  | cons a l ih => exact fun s => (hf s a).moves.trans (ih _)

theorem Moves.actAll (s : State) (l : List (Port × Action)) : Moves s (s.actAll l) := .foldl .act l s

theorem Moves.selectAll (s : State) : Moves s s.selectAll := .foldl .select Port.all s

theorem Moves.scheduleEvent (s : State) : Moves s s.scheduleEvent := by
  simp only [State.scheduleEvent]
  split
  · exact ((Bookkeeping.disarm s).moves.trans (.actAll _ _)).then (.raiseBit _ _ _)
  · exact .refl

theorem Moves.transfer {s : State} {dev : BitVec 2} {f : State → State} (hf : ∀ s, Moves s (f s)) :
    Moves s (s.transfer dev f) := by
  simp only [State.transfer]
  split
  · exact (Bookkeeping.endTimeRead s 0).moves.trans (hf _)
  · exact (Bookkeeping.endTimeRead s 0).moves

theorem Moves.serviceCommand {s : State} {code : Byte} {f : State → State} (hf : s.inService = true → Moves s (f s)) :
    Moves s (s.serviceCommand code f) := by
  simp only [State.serviceCommand]
  split
  · next h => exact hf h
  · exact (Bookkeeping.setResult _ _ _ _).moves

/-! ### The moves of each command -/

theorem Moves.arrivalStart {p : Port} {cls : Byte} {s t : State} (h : execArrivalStart p cls s = .next t) :
    Moves s t := by
  simp only [execArrivalStart, Host.Outcome.next.injEq, Bool.and_eq_true, decide_eq_true_eq] at h
  subst h
  split
  · next hcond =>
    obtain ⟨hf, hrx⟩ := hcond
    split
    · exact (Move.claim hf hrx).moves
    · split
      · exact (Move.receive _ (fun _ => rfl) hf hrx).moves
      · exact (Move.receive _ (fun _ => rfl) hf hrx).moves
  · exact .refl

theorem Moves.trafficArrivalCompletion {p : Port} {f : Frame} {s t : State}
    (h : execTrafficArrivalCompletion p f s = .next t) : Moves s t := by
  simp only [execTrafficArrivalCompletion, Host.Outcome.next.injEq] at h
  subst h
  cases hrx : s.rx p with
  | traffic i => exact (Move.endTraffic f hrx).moves
  | unstored => exact (Move.endReception (by simp [hrx, Reception.holds])).moves
  | unknownClass => exact (Move.endReception (by simp [hrx, Reception.holds])).moves.then (.count _ _)
  | abandonedTraffic i => exact (Move.dropTraffic hrx).moves
  | abandonedUnknown => exact (Move.endReception (by simp [hrx, Reception.holds])).moves
  | idle => exact .refl
  | hail a => exact .refl
  | abandonedHail => exact .refl

theorem Moves.hailArrivalCompletion {p : Port} {f : Frame} {s t : State}
    (h : execHailArrivalCompletion p f s = .next t) : Moves s t := by
  cases h
  cases hrx : s.rx p with
  | hail a =>
    cases hc : checkHail f with
    | none => exact (Move.endReception (by simp [hrx, Reception.holds])).moves.then (.count _ _)
    | some h => exact (Move.hail hrx hc).moves
  | abandonedHail => exact (Move.endReception (by simp [hrx, Reception.holds])).moves
  | traffic i => exact .refl
  | unstored => exact .refl
  | unknownClass => exact .refl
  | abandonedTraffic i => exact .refl
  | abandonedUnknown => exact .refl
  | idle => exact .refl

theorem Moves.modemStatusWord {p : Port} {word : List Byte} {s t : State}
    (h : execModemStatusWord p word s = .next t) : Moves s t := by
  simp only [execModemStatusWord, Host.Outcome.next.injEq, Bool.and_eq_true, Bool.not_eq_true'] at h
  subst h
  split
  · next hcond =>
    obtain ⟨hf, hp⟩ := hcond
    cases hw : StatusWord.read word with
    | none => exact .refl
    | some w => exact (Move.statusWord hf hp hw).moves
  · exact .refl

theorem Moves.departureCompletion {p : Port} {s t : State} (h : execDepartureCompletion p s = .next t) :
    Moves s t := by
  simp only [execDepartureCompletion, Host.Outcome.next.injEq] at h
  subst h
  cases htx : s.tx p with
  | idle => exact .refl
  | hail m => exact (Move.hailDeparted htx).moves.tail (.select _ p)
  | traffic i m =>
    have hcount : (s.count (.port p .txTraffic)).tx p = .traffic i m := htx
    exact ((Bookkeeping.count s _).moves.tail (.trafficDeparted hcount)).tail (.select _ p)

theorem Moves.ite {s t : State} {c : Prop} [Decidable c] (h : c → Moves s t) : Moves s (if c then t else s) := by
  split
  · next hc => exact h hc
  · exact .refl

theorem Moves.judgeIngress (s : State) (q : IngressRequest) : Moves s (s.judgeIngress q) := by
  have hrefuse : ∀ c, Moves s (s.refuseIngress c) := fun c =>
    (Bookkeeping.count s _).moves.then (.replyDue _ _)
  simp only [State.judgeIngress]
  cases hcause : s.ingressCause? q with
  | some c => exact hrefuse c
  | none =>
    have hs : s.inService = true := by
      by_contra hs
      rw [Bool.not_eq_true] at hs
      simp [State.ingressCause?, hs] at hcause
    simp only [State.acceptIngress]
    split
    · exact hrefuse _
    · next hg => exact ((Move.ingress hs hg).moves.then (.count _ _)).then (.replyDue _ _)

theorem Moves.ingressCompletion {bytes : List Byte} {aborted : Bool} {s t : State}
    (h : execIngressCompletion bytes aborted s = .next t) : Moves s t := by
  simp only [execIngressCompletion, Host.Outcome.next.injEq] at h
  subst h
  split
  · exact .refl
  · have hdone : Bookkeeping s { s with lpc := { s.lpc with request := none } } := {}
    split
    · exact hdone.moves
    · exact (hdone.moves.then (.drew _)).trans (.judgeIngress _ _)

theorem Moves.deliveryCompletion {s t : State} (h : execDeliveryCompletion s = .next t) : Moves s t := by
  simp only [execDeliveryCompletion, Host.Outcome.next.injEq] at h
  subst h
  refine .ite fun hd => ?_
  refine ((Moves.then (Move.delivered hd).moves ?_).then (.sendReply _)).tail (.deliver _)
  exact {}

theorem Moves.startCommand (s : State) : Moves s s.startCommand := by
  simp only [State.startCommand]
  split
  · exact (Bookkeeping.setResult _ _ _ _).moves
  · next hs =>
    split
    · exact (Bookkeeping.setResult _ _ _ _).moves
    · next hg => exact ((Move.start (by simpa using hs) hg).moves.then (.accept _ _)).trans (.selectAll _)

theorem Moves.rejoinCommand (s : State) : Moves s s.rejoinCommand :=
  .serviceCommand fun hs =>
    (((Move.rejoin hs).moves.then (.accept _ _)).then (.sendReply _)).trans (.selectAll _)

theorem Moves.configWrite (s : State) (body : List Byte) : Moves s (s.configWrite body) := by
  simp only [State.configWrite]
  split
  · exact .refl
  · exact (Bookkeeping.setResult _ _ _ _).moves
  · split
    · exact (Bookkeeping.setResult _ _ _ _).moves
    · next hs => exact (Move.configure _ (by simpa using hs)).moves.then (.setResult _ _ _ _)

theorem Moves.refuseOperand (s : State) (code : Byte) : Moves s (s.refuseOperand code) :=
  (Bookkeeping.setResult _ _ _ _).moves

theorem Moves.forceCommand (s : State) (mask : BitVec 5) (actions : List Byte) :
    Moves s (match forceActions? (portsOf mask) actions with
      | none => s.refuseOperand codeForce
      | some l => (s.actAll l).accept codeForce) := by
  split
  · exact .refuseOperand s _
  · exact (Moves.actAll s _).then (.accept _ _)

theorem Moves.armCommand {s : State} (hs : s.inService = true) (target : Time) (action : Byte) (mask : BitVec 5) :
    Moves s (match scheduleAction? action with
      | none => s.refuseOperand codeArm
      | some a => ({ s with tu := { s.tu with schedule := ⟨true, target, a, mask⟩ } }.scheduleEvent).accept codeArm) := by
  split
  · exact .refuseOperand s _
  · next a _ =>
    have harm : Bookkeeping s { s with tu := { s.tu with schedule := ⟨true, target, a, mask⟩ } } :=
      { armed := fun h => by rw [hs] at h; exact Bool.noConfusion h }
    exact (harm.moves.trans (.scheduleEvent _)).then (.accept _ _)

theorem Moves.stepCommand (s : State) (offset : Int) :
    Moves s (if stepLimit < |offset| then s.refuseOperand codeStep
      else ((s.adjustTime (fun t => t.step offset)).scheduleEvent).accept codeStep) := by
  split
  · exact .refuseOperand s _
  · exact ((Bookkeeping.adjustTime s rfl (fun h => h)).moves.trans (.scheduleEvent _)).then (.accept _ _)

theorem Moves.ackCommand (s : State) (kinds : Byte) :
    Moves s (if 64 ≤ kinds.toNat then s.refuseOperand codeAck
      else (s.setNotices (s.snu.notices.acked kinds)).accept codeAck) := by
  split
  · exact .refuseOperand s _
  · exact Bookkeeping.moves {}

theorem Moves.clearCounters (s : State) (l : List Scope) : Moves s ((l.foldl State.clearScope s).accept codeClearCounters) :=
  (Moves.foldl (fun s x => .bookkeeping (.clearScope s x)) l s).then (.accept _ _)

theorem Moves.rolloverCommand (s : State) (l : List Scope) (sets : List Byte) :
    Moves s (match rolloverSets? l sets with
      | none => s.refuseOperand codeClearRollover
      | some l => { s with snu := s.snu.clearRollovers l }.accept codeClearRollover) := by
  split
  · exact .refuseOperand s _
  · exact Bookkeeping.moves {}

/-- Every command is a chain of moves. -/
theorem exec_moves {c : Instr} {s t : State} (h : exec c s = .next t) : Moves s t := by
  cases c with
  | powerOn => exact (Move.powerOn h).moves
  | powerOnResetRelease dc => cases h; exact .ite fun _ => Bookkeeping.moves {}
  | arrivalStart p cls => exact .arrivalStart h
  | trafficArrivalCompletion p f => exact .trafficArrivalCompletion h
  | hailArrivalCompletion p f => exact .hailArrivalCompletion h
  | modemStatusWord p word => exact .modemStatusWord h
  | hailTimerExpiry p => cases h; exact .ite fun he => (Move.hailTimer he).moves.tail (.select _ p)
  | silenceExpiry p => cases h; exact .ite fun he => (Move.silent he).moves
  | holdExpiry p => cases h; exact .ite fun he => (Move.timer he).moves
  | trialExpiry p => cases h; exact .ite fun he => (Move.timer he).moves
  | settleExpiry p => cases h; exact .ite fun he => (Move.settle he).moves
  | fadeTimeAccrual p =>
    cases h
    exact .ite fun he => (Bookkeeping.setRemainder s p _ (by omega)).moves.then (.count _ _)
  | departureCompletion p => exact .departureCompletion h
  | tinRisingEdge => exact (Bookkeeping.tinEdge s h).moves
  | scheduleMatch => cases h; exact .scheduleEvent s
  | ingressCompletion bytes aborted => exact .ingressCompletion h
  | replyEnd => cases h; exact .ite fun _ => (Bookkeeping.moves {}).tail (.deliver _)
  | deliveryReady => cases h; exact (Bookkeeping.moves {}).tail (.deliver _)
  | deliveryCompletion => exact .deliveryCompletion h
  | start dev => cases h; exact .transfer .startCommand
  | rejoin dev => cases h; exact .transfer .rejoinCommand
  | force dev mask actions => cases h; exact .transfer fun s => .serviceCommand fun _ => .forceCommand s mask actions
  | armSchedule dev target action mask =>
    cases h; exact .transfer fun s => .serviceCommand fun hs => .armCommand hs target action mask
  | disarm dev =>
    cases h; exact .transfer fun s => .serviceCommand fun _ => (Bookkeeping.disarm s).moves.then (.accept _ _)
  | timeStep dev offset => cases h; exact .transfer fun s => .stepCommand s _
  | timeTrim dev trim => cases h; exact .transfer fun s => (Bookkeeping.timeTrim s _).moves.then (.setResult _ _ _ _)
  | clearCounters dev mask station => cases h; exact .transfer fun s => .serviceCommand fun _ => .clearCounters s _
  | clearRollover dev mask station sets =>
    cases h; exact .transfer fun s => .serviceCommand fun _ => .rolloverCommand s _ sets
  | ackNotices dev kinds => cases h; exact .transfer fun s => .serviceCommand fun _ => .ackCommand s kinds
  | unknownCommand dev code => cases h; exact .transfer fun s => (Bookkeeping.setResult s _ _ _).moves
  | configWrite dev body => cases h; exact .transfer fun s => .configWrite s body
  | statusRead dev mask clocks => cases h; exact .transfer fun s => Bookkeeping.moves {}
  | counterRead dev mask station clocks => cases h; exact .transfer fun s => Bookkeeping.moves {}
  | tableReadLink dev mask clocks => cases h; exact .transfer fun s => (Bookkeeping.read s _ _).moves.then (.drew _)
  | tableReadCost dev clocks => cases h; exact .transfer fun s => (Bookkeeping.read s _ _).moves
  | tableReadSeen dev clocks => cases h; exact .transfer fun s => (Bookkeeping.read s _ _).moves.then (.drew _)
  | tableReadRing dev clocks => cases h; exact .transfer fun s => (Bookkeeping.read s _ _).moves
  | tableReadRace dev mask clocks => cases h; exact .transfer fun s => (Bookkeeping.read s _ _).moves
  | tableReadConfig dev clocks => cases h; exact .transfer fun s => (Bookkeeping.read s _ _).moves
  | tableReadUnknown dev clocks =>
    cases h; exact .transfer fun s => (Bookkeeping.read s _ _).moves.then (.setResult _ _ _ _)
  | timeRead dev => cases h; exact .transfer fun s => Bookkeeping.moves {}
  | timeReadRelease clocks => cases h; exact (Bookkeeping.endTimeRead s clocks).moves
  | unknownTransferType dev type => cases h; exact .transfer fun s => (Bookkeeping.setResult s _ _ _).moves
  | transferCutShort => cases h; exact (Bookkeeping.endTimeRead s 0).moves
  | ingressStart =>
    cases h
    split
    · exact Bookkeeping.moves {}
    · exact .refl
  | deliveryReadyWithdrawn => cases h; exact Bookkeeping.moves {}

/-- Every step is a chain of moves. -/
theorem step_moves {s t : State} (h : step s = .next t) : Moves s t := by
  simp only [step] at h
  split at h
  · cases h
    exact (Bookkeeping.tick s).moves
  · have hqueue : ∀ l, Bookkeeping s { s with pending := l } := fun _ => {}
    exact (hqueue _).moves.trans (exec_moves h)

/-- A law that every move keeps is kept by every step. -/
theorem step_keeps {P : State → Prop} (hmove : ∀ s t, Move s t → P s → P t) {s t : State} (hs : P s)
    (h : step s = .next t) : P t := by
  replace h := step_moves h
  induction h with
  | refl => exact hs
  | tail _ hm ih => exact hmove _ _ hm ih

end Sys2Proof.Machine

/-! Rules of induction for the copies of a message and for the events of a port: what the few changes inside them keep,
they keep. And the pool's canonical form, which every step keeps (R115, R116). -/

namespace Sys2Proof.Machine

/-! ### The copies of a message -/

/-- A local copy joined to the Delivery Queue with its reference, before the outward path tests for a delivery (R142). -/
def State.joinedLocal (s : State) (i : Nat) : State :=
  { s with fe := s.fe.update i (fun b => { b with refs := b.refs + 1 }) }.setDeliveries (s.lpc.queue ++ [i])

/-- Placing a local copy: it joins a queue with room, else it is dropped and counted (R125, R142). -/
theorem placeLocal_cases (s : State) (i : Nat) :
    (s.lpc.queue.length < Config.deliveryLimit ∧ s.placeLocal i = (s.joinedLocal i).tryDeliver)
    ∨ (Config.deliveryLimit ≤ s.lpc.queue.length ∧ s.placeLocal i = s.count (.station .deliveryDrop)) := by
  by_cases h : s.lpc.queue.length < Config.deliveryLimit
  · exact .inl ⟨h, if_pos h⟩
  · exact .inr ⟨Nat.not_lt.1 h, if_neg h⟩

/-- The ports on which a message gets egress copies (R120, R122, R123). -/
def State.copyPorts (s : State) (b : Buffer) : List Port :=
  match b.header.kind with
  | .flood => s.floodPorts b.arrival b.header.origin
  | .aimed =>
    match s.aimedChoice b.arrival b.header.target b.header.urgency with
    | .egress c pair => ascendingPair c pair
    | .localPort | .noRoute => []

/-- The copies of a message keep what a count, one copy joined to a queue with room on a port of its copy set, a
selection and a local copy keep (R120 to R125). -/
theorem makeCopies_induct {P : State → Prop} {s : State} {b : Buffer}
    (count : ∀ s c, P s → P (s.count c))
    (place : ∀ t, P t → P (placeCopies b.id b.header.urgency (s.copyPorts b) t).1)
    (loc : ∀ s, P s → P (s.placeLocal b.id)) (h : P s) : P (s.makeCopies b).1 := by
  have hspent : P (s.countSpent b.arrival) := by
    cases b.arrival with
    | line p => exact count _ _ h
    | loc => exact h
  have hegress : P (s.egressCopies b (s.copyPorts b)).1 := by
    simp only [State.egressCopies]
    split
    · exact hspent
    · exact place s h
  simp only [State.copyPorts, State.makeCopies] at hegress ⊢
  cases hk : b.header.kind with
  | flood =>
    simp only [hk] at hegress
    dsimp only
    split
    · exact loc _ hegress
    · exact hegress
  | aimed =>
    simp only [hk] at hegress
    dsimp only
    split
    · exact loc _ h
    · exact count _ _ h
    · next hc => simpa only [hc] using hegress

/-! ### Events of a port -/

/-- A property that changes of the link records, the Cost Table, the counters and the notices keep, and the queue work
of a port that leaves service. -/
structure KeptByLinkWork (P : State → Prop) (p : Port) : Prop where
  tables : ∀ (s : State) (lm : PerPort LinkRecord) (rc : RouteComputer) (snu : Statistics),
    P s → P { s with lm := lm, rc := rc, snu := snu }
  flush : ∀ s, P s → P (s.flush p)

section
variable {P : State → Prop} {p : Port}

theorem KeptByLinkWork.transition (k : KeptByLinkWork P p) {s : State} (f : LinkRecord → LinkRecord) (h : P s) :
    P (s.transition p f) := by
  rw [State.transition_frame]
  exact k.tables s _ s.rc _ h

theorem KeptByLinkWork.setLink (k : KeptByLinkWork P p) {s : State} (r : LinkRecord) (h : P s) : P (s.setLink p r) :=
  k.tables s _ s.rc s.snu h

theorem KeptByLinkWork.settleRoutes (k : KeptByLinkWork P p) {s : State} (old : LinkState) (always : Bool) (h : P s) :
    P (s.settleRoutes p old always) := by
  have hrouted : P (if always || old.reroutes (s.link p).state then s.recompute else s) := by
    split
    · exact k.tables s s.lm _ _ h
    · exact h
  simp only [State.settleRoutes]
  generalize (if always || old.reroutes (s.link p).state then s.recompute else s) = routed at hrouted ⊢
  split
  · exact k.flush _ hrouted
  · exact hrouted

theorem KeptByLinkWork.selfHail (k : KeptByLinkWork P p) {s : State} (h : P s) : P (s.selfHail p) :=
  k.settleRoutes _ _ (k.tables _ _ _ _ (k.transition _ h))

theorem KeptByLinkWork.takeFromNeighbour (k : KeptByLinkWork P p) {s : State} (a : Time) (m : Hail) (h : P s) :
    P (s.takeFromNeighbour p a m) := by
  simp only [State.takeFromNeighbour, State.countIf]
  split
  · exact k.tables s _ s.rc _ h
  · exact k.setLink _ h

theorem KeptByLinkWork.evaluate (k : KeptByLinkWork P p) {s : State} (timer : Bool) (h : P s) :
    P (s.evaluate p timer) :=
  k.transition _ h

theorem KeptByLinkWork.takeCosts (k : KeptByLinkWork P p) {s : State} (m : Hail) (h : P s) : P (s.takeCosts p m) :=
  k.tables s s.lm _ _ h

theorem KeptByLinkWork.neighbourHail (k : KeptByLinkWork P p) {s : State} (a : Time) (m : Hail) (h : P s) :
    P (s.neighbourHail p a m) := by
  have htaken : P (((s.transition p (fun r => r.identify (fibrePort p) s.now m)).takeFromNeighbour p a m).evaluate p
      false |>.takeCosts p m) :=
    k.takeCosts m (k.evaluate false (k.takeFromNeighbour a m (k.transition _ h)))
  simp only [State.neighbourHail]
  split
  · exact k.flush _ htaken
  · exact htaken

theorem KeptByLinkWork.hail (k : KeptByLinkWork P p) {s : State} (a : Time) (m : Hail) (h : P s) :
    P (s.hail p a m) := by
  simp only [State.hail]
  split
  · exact k.selfHail h
  · exact k.neighbourHail a m h

theorem KeptByLinkWork.statusWord (k : KeptByLinkWork P p) {s : State} (w : StatusWord) (h : P s) :
    P (s.statusWord p w) :=
  k.settleRoutes _ _ (k.transition _ (k.setLink _ h))

theorem KeptByLinkWork.silent (k : KeptByLinkWork P p) {s : State} (h : P s) : P (s.silent p) := by
  have hfaded := k.transition (fun r => r.silent (fibrePort p) s.now) h
  simp only [State.silent]
  refine k.settleRoutes _ _ ?_
  split
  · exact k.tables _ _ _ _ hfaded
  · exact hfaded

theorem KeptByLinkWork.timerEvent (k : KeptByLinkWork P p) {s : State} (h : P s) : P (s.timerEvent p) :=
  k.settleRoutes _ _ (k.transition _ h)

theorem KeptByLinkWork.settleEvent (k : KeptByLinkWork P p) {s : State} (h : P s) : P (s.settleEvent p) :=
  k.settleRoutes _ _ (k.transition _ (k.setLink _ h))

theorem KeptByLinkWork.act (k : KeptByLinkWork P p) {s : State} (a : Action) (h : P s) : P (s.act (p, a)) :=
  k.settleRoutes _ _ (k.setLink _ h)

end

/-! ### The pool's canonical form -/

theorem select_wf {s : State} (p : Port) (h : s.fe.wf) : (s.select p).fe.wf :=
  select_induct (P := fun s => s.fe.wf)
    (fun _ h _ _ => h) (fun _ _ _ h _ _ => h) (fun _ i _ _ h _ _ => Forwarding.release_wf h i) (fun _ _ _ _ h _ _ _ _ => h)
    h

theorem tryDeliver_wf {s : State} (h : s.fe.wf) : s.tryDeliver.fe.wf :=
  tryDeliver_induct (P := fun s => s.fe.wf)
    (fun _ _ _ h _ _ => h) (fun _ i _ _ h _ _ => Forwarding.release_wf h i) (fun _ _ _ _ h _ _ _ => h) h

theorem joined_wf {s : State} (i : Nat) (u : Urgency) (p : Port) (h : s.fe.wf) : (s.joined i u p).fe.wf :=
  Forwarding.update_wf h i _ (fun _ => rfl) (fun _ _ => Nat.le_add_left 1 _)

theorem placeCopies_wf {s : State} (i : Nat) (u : Urgency) (ports : List Port) (h : s.fe.wf) :
    (placeCopies i u ports s).1.fe.wf :=
  placeCopies_induct (P := fun s => s.fe.wf) (fun _ p h _ => joined_wf i u p h) (fun _ _ h => h)
    (fun _ p h => select_wf p h) ports s h

theorem placeLocal_wf {s : State} (i : Nat) (h : s.fe.wf) : (s.placeLocal i).fe.wf := by
  have hjoin : (s.joinedLocal i).fe.wf :=
    Forwarding.update_wf h i _ (fun _ => rfl) (fun _ _ => Nat.le_add_left 1 _)
  rcases placeLocal_cases s i with ⟨-, e⟩ | ⟨-, e⟩ <;> rw [e]
  · exact tryDeliver_wf hjoin
  · exact h

theorem makeCopies_wf {s : State} (b : Buffer) (h : s.fe.wf) : (s.makeCopies b).1.fe.wf :=
  makeCopies_induct (P := fun s => s.fe.wf) (fun _ _ h => h) (fun _ h => placeCopies_wf _ _ _ h)
    (fun _ h => placeLocal_wf _ h) h

theorem copiesOf_wf {s : State} (i : Nat) (h : s.fe.wf) : (s.copiesOf i).1.fe.wf := by
  simp only [State.copiesOf]
  split
  · exact makeCopies_wf _ h
  · exact h

theorem flushEntry_wf {s : State} (p : Port) (e : Urgency × Nat) (h : s.fe.wf) : (State.flushEntry p s e).fe.wf := by
  rcases flushEntry_cases p s e with h' | ⟨b, -, c, h'⟩ | ⟨b, r, -, -, -, h'⟩ <;> rw [h']
  · exact h
  · exact Forwarding.release_wf h _
  · exact select_wf r (Forwarding.update_wf h _ _ (fun _ => rfl) (fun _ h => h))

theorem flush_wf {s : State} (p : Port) (h : s.fe.wf) : (s.flush p).fe.wf :=
  flush_induct (P := fun s => s.fe.wf) (fun _ e h => flushEntry_wf p e h) h

theorem linkWork_keeps_wf (p : Port) : KeptByLinkWork (fun s => s.fe.wf) p :=
  ⟨fun _ _ _ _ h => h, fun _ h => flush_wf p h⟩

/-- A frame claims a granted buffer, or finds none (R11, R12). -/
theorem beginTraffic_cases (s : State) (p : Port) :
    (∃ i fe, s.fe.grant s.tu.stamp (.line p) .blank [] = some (i, fe)
      ∧ s.beginTraffic p = { s with fe := fe }.setRx p (.traffic i))
    ∨ (s.fe.grant s.tu.stamp (.line p) .blank [] = none
      ∧ s.beginTraffic p = (s.count (.port p .rxNoBuffer)).setRx p .unstored) := by
  simp only [State.beginTraffic]
  cases hg : s.fe.grant s.tu.stamp (.line p) .blank [] with
  | none => exact .inr ⟨rfl, rfl⟩
  | some g => exact .inl ⟨g.1, g.2, rfl, rfl⟩

/-- The Arrival Filter's judgement of the frame in a buffer (R101). -/
def State.judged (s : State) (b : Buffer) : Judgement :=
  judge s.image.number s.image.idleNs s.now s.af.slots b.header.origin b.header.startNumber b.header.sequence

/-- The statistics after a judgement on port `p` (R104, R109). -/
def Statistics.judged (n : Statistics) (p : Port) (j : Judgement) : Statistics :=
  if j.restart then (n.count (j.verdict.counter p)).count (.station .originRestart) else n.count (j.verdict.counter p)

/-- The filter and its counts after the judgement of the frame in a buffer, before any copy (R101, R109 to R111). -/
def State.filtered (s : State) (p : Port) (b : Buffer) : State :=
  { s with
    af := s.af.after (s.judged b) p b.stamp.ic b.header.origin b.header.startNumber b.header.sequence
    snu := s.snu.judged p (s.judged b) }

/-- A frame handed over is filtered, and a FIRST alone makes copies (R15). -/
theorem handOver_eq (s : State) (p : Port) (b : Buffer) :
    s.handOver p b
      = if (s.judged b).verdict = .first then ((s.filtered p b).makeCopies b).1 else s.filtered p b := by
  have hcounts : ∀ (t : State) (j : Judgement),
      (t.count (j.verdict.counter p)).countIf j.restart (.station .originRestart)
        = { t with snu := t.snu.judged p j } := by
    intro t j
    simp only [State.countIf, Statistics.judged]
    split <;> rfl
  simp only [State.handOver, hcounts]
  rfl

/-- The end of a traffic frame: its buffer released with a count; or its header and payload stored, the frame handed
over, and its buffer released (R13 to R15). -/
theorem endTraffic_cases (s : State) (p : Port) (i : Nat) (f : Frame) :
    s.endTraffic p i f = (s.count (.port p .rxCheckErr)).release i
    ∨ ∃ (h : RouteHeader) (payload : List Byte),
        let s1 := { s.count (.port p .rxGood) with
          fe := s.fe.update i (fun b => { b with header := h, payload := payload }) }
        (s1.fe.buffer? i = none ∧ s.endTraffic p i f = s1)
        ∨ ∃ b, s1.fe.buffer? i = some b ∧ s.endTraffic p i f = (s1.handOver p b).release i := by
  simp only [State.endTraffic]
  split
  · exact .inl rfl
  · next h payload _ =>
    right
    refine ⟨h.hopStep.addHop (s.link p).delay, payload, ?_⟩
    simp only [State.goodTraffic]
    split
    · next b hb => exact .inr ⟨b, hb, rfl⟩
    · next hb => exact .inl ⟨hb, rfl⟩

theorem handOver_wf {s : State} (p : Port) (b : Buffer) (h : s.fe.wf) : (s.handOver p b).fe.wf := by
  rw [handOver_eq]
  split
  · exact makeCopies_wf b h
  · exact h

theorem endTraffic_wf {s : State} (p : Port) (i : Nat) (f : Frame) (h : s.fe.wf) : (s.endTraffic p i f).fe.wf := by
  rcases endTraffic_cases s p i f with e | ⟨hd, payload, h'⟩
  · rw [e]; exact Forwarding.release_wf h i
  · have hstored := Forwarding.update_wf h i (fun b => { b with header := hd, payload := payload }) (fun _ => rfl)
      (fun _ h => h)
    rcases h' with ⟨-, e⟩ | ⟨b, -, e⟩ <;> rw [e]
    · exact hstored
    · exact Forwarding.release_wf (handOver_wf p b hstored) i

theorem beginTraffic_wf {s : State} (p : Port) (h : s.fe.wf) : (s.beginTraffic p).fe.wf := by
  rcases beginTraffic_cases s p with ⟨i, fe, hg, e⟩ | ⟨-, e⟩ <;> rw [e]
  · obtain ⟨-, -, hwf, -⟩ := (Forwarding.grant_spec h _ _ _ _).2 i fe hg
    exact hwf
  · exact h

theorem dropDeliveryHead_cases (s : State) :
    (s.lpc.queue = [] ∧ s.dropDeliveryHead = s)
    ∨ ∃ i l, s.lpc.queue = i :: l ∧ s.dropDeliveryHead = (s.setDeliveries l).release i := by
  simp only [State.dropDeliveryHead]
  cases s.lpc.queue with
  | nil => exact .inl ⟨rfl, rfl⟩
  | cons i l => exact .inr ⟨i, l, rfl, rfl⟩

theorem execPowerOn_next {s t : State} (h : execPowerOn s = .next t) :
    t = { State.reset with pending := s.pending, draws := s.draws, lpc := t.lpc }
    ∧ t.lpc = { LocalPort.powerOn with deliveryReady := t.lpc.deliveryReady, outwardEnd := t.lpc.outwardEnd } := by
  cases h
  exact ⟨rfl, rfl⟩

theorem Forwarding.powerOn_wf : Forwarding.powerOn.wf := by decide

/-- The references that REJOIN gives back: every queue entry's, the Delivery Queue's last (R133, R147). -/
def State.queued (s : State) : List Nat := (s.fe.queues.toList.map EgressQueue.buffers).flatten ++ s.lpc.queue

theorem State.emptyQueues_fe (s : State) :
    s.emptyQueues.fe = { (s.releaseAll s.queued).fe with queues := .fill .empty } := rfl

theorem rejoinBlocks_wf {s : State} (h : s.fe.wf) : s.rejoinBlocks.fe.wf := by
  show s.emptyQueues.fe.wf
  rw [State.emptyQueues_fe]
  exact State.releaseAll_wf s.queued h

theorem Move.keeps_wf {s t : State} (m : Move s t) (h : s.fe.wf) : t.fe.wf := by
  cases m with
  | bookkeeping hb => rw [hb.fe]; exact h
  | powerOn hp => rw [(execPowerOn_next hp).1]; exact Forwarding.powerOn_wf
  | select p => exact select_wf p h
  | deliver => exact tryDeliver_wf h
  | claim => exact beginTraffic_wf _ h
  | receive | endReception | hailDeparted | hailTimer | start | configure => exact h
  | endTraffic f => exact endTraffic_wf _ _ f h
  | dropTraffic | trafficDeparted => exact Forwarding.release_wf h _
  | hail => exact (linkWork_keeps_wf _).hail _ _ h
  | statusWord => exact (linkWork_keeps_wf _).statusWord _ h
  | silent => exact (linkWork_keeps_wf _).silent h
  | timer => exact (linkWork_keeps_wf _).timerEvent h
  | settle => exact (linkWork_keeps_wf _).settleEvent h
  | act a => exact (linkWork_keeps_wf a.1).act a.2 h
  | ingress _ hg =>
    obtain ⟨-, -, hwf, -⟩ := (Forwarding.grant_spec h _ _ _ _).2 _ _ hg
    exact Forwarding.release_wf (copiesOf_wf _ hwf) _
  | delivered =>
    rcases dropDeliveryHead_cases s with ⟨-, e⟩ | ⟨i, l, -, e⟩ <;> rw [e]
    · exact h
    · exact Forwarding.release_wf h i
  | rejoin => exact rejoinBlocks_wf h

end Sys2Proof.Machine

/-! References and holders (R116): each reference of a buffer has one holder at every moment, an operation in progress
holding the references that it has taken and not yet given. -/

namespace Sys2Proof.Machine

/-! ### The buffer of a number -/

/-- In a pool in its form the buffer of a number is the one that has the number. -/
theorem Forwarding.buffer?_eq_some_iff {f : Forwarding} (hf : f.wf) (i : Nat) (b : Buffer) :
    f.buffer? i = some b ↔ b ∈ f.pool ∧ b.id = i := by
  obtain ⟨hrising, -⟩ := hf
  refine ⟨fun h => ⟨List.mem_of_find?_eq_some h, by simpa using List.find?_some h⟩, fun ⟨hmem, hid⟩ => ?_⟩
  cases hc : f.buffer? i with
  | none => simpa [hid] using List.find?_eq_none.1 hc b hmem
  | some c =>
    have hcmem := List.mem_of_find?_eq_some hc
    have hcid : c.id = i := by simpa using List.find?_some hc
    have hnodup : (f.pool.map Buffer.id).Nodup := List.pairwise_map.2 (hrising.imp Nat.ne_of_lt)
    exact congrArg some (List.inj_on_of_nodup_map hnodup hcmem hmem (hcid.trans hid.symm))

theorem Forwarding.id_of_buffer? {f : Forwarding} {i : Nat} {b : Buffer} (h : f.buffer? i = some b) : b.id = i := by
  simpa using List.find?_some h

/-- A granted buffer reads back as it was granted, and no other buffer reads otherwise (R116, R117). -/
theorem Forwarding.grant_buffer? {f f' : Forwarding} (hf : f.wf) {stamp : Stamp} {arrival : Origin} {h : RouteHeader}
    {payload : List Byte} {i : Nat} (hg : f.grant stamp arrival h payload = some (i, f')) :
    f.buffer? i = none ∧ f'.buffer? i = some ⟨i, h, payload, stamp, arrival, arrival.usedPorts, 1⟩
    ∧ ∀ j, j ≠ i → f'.buffer? j = f.buffer? j := by
  obtain ⟨hfree, -, hwf, -, -, hmem⟩ := (Forwarding.grant_spec hf stamp arrival h payload).2 i f' hg
  refine ⟨List.find?_eq_none.2 (by simpa using hfree),
    (Forwarding.buffer?_eq_some_iff hwf _ _).2 ⟨(hmem _).2 (.inl rfl), rfl⟩, fun j hj => Option.ext fun b => ?_⟩
  rw [Forwarding.buffer?_eq_some_iff hwf, Forwarding.buffer?_eq_some_iff hf, hmem]
  refine ⟨fun ⟨hb, hid⟩ => ⟨hb.resolve_left ?_, hid⟩, fun ⟨hb, hid⟩ => ⟨.inr hb, hid⟩⟩
  rintro rfl
  exact hj hid.symm

/-! ### Reference counts -/

theorem Forwarding.refsOf_of_buffer? {f : Forwarding} {i : Nat} {b : Buffer} (h : f.buffer? i = some b) :
    f.refsOf i = b.refs := by
  simp [Forwarding.refsOf, h]

theorem Forwarding.refsOf_of_free {f : Forwarding} {i : Nat} (h : f.buffer? i = none) : f.refsOf i = 0 := by
  simp [Forwarding.refsOf, h]

/-- A buffer with a holder is in use. -/
theorem Forwarding.exists_buffer?_of_refsOf {f : Forwarding} {i : Nat} (h : 0 < f.refsOf i) :
    ∃ b, f.buffer? i = some b := by
  cases hb : f.buffer? i with
  | none => rw [Forwarding.refsOf_of_free hb] at h; omega
  | some b => exact ⟨b, rfl⟩

theorem Forwarding.refsOf_update (f : Forwarding) (i : Nat) {h : Buffer → Buffer} (hid : ∀ b, (h b).id = b.id)
    (hrefs : ∀ b, (h b).refs = b.refs) (j : Nat) : (f.update i h).refsOf j = f.refsOf j := by
  by_cases hj : j = i
  · subst hj
    rw [Forwarding.refsOf, Forwarding.update_buffer?_self f j h hid, Forwarding.refsOf]
    cases f.buffer? j with
    | none => rfl
    | some b => exact hrefs b
  · rw [Forwarding.refsOf, Forwarding.update_buffer?_of_ne f h hj hid, Forwarding.refsOf]

theorem Forwarding.refsOf_addRef (f : Forwarding) (i : Nat) {h : Buffer → Buffer} (hid : ∀ b, (h b).id = b.id)
    (hrefs : ∀ b, (h b).refs = b.refs + 1) (hused : 0 < f.refsOf i) (j : Nat) :
    (f.update i h).refsOf j = f.refsOf j + if i = j then 1 else 0 := by
  by_cases hj : i = j
  · subst hj
    obtain ⟨b, hb⟩ := Forwarding.exists_buffer?_of_refsOf hused
    have hnew : (f.update i h).buffer? i = some (h b) := by rw [Forwarding.update_buffer?_self f i h hid, hb]; rfl
    rw [Forwarding.refsOf_of_buffer? hnew, Forwarding.refsOf_of_buffer? hb, hrefs, if_pos rfl]
  · rw [Forwarding.refsOf, Forwarding.update_buffer?_of_ne f h (Ne.symm hj) hid, if_neg hj]
    rfl

theorem Forwarding.refsOf_release {f : Forwarding} (hf : f.wf) (i j : Nat) :
    (f.release i).refsOf j = f.refsOf j - if i = j then 1 else 0 := by
  by_cases hj : i = j
  · subst hj
    rw [Forwarding.refsOf, Forwarding.release_buffer?_self hf, Forwarding.refsOf, if_pos rfl]
    cases f.buffer? i with
    | none => rfl
    | some b =>
      simp only [Option.bind_some, releaseBuffer, Option.elim_some]
      split
      · simp only [Option.elim_none]; omega
      · rfl
  · rw [Forwarding.refsOf, Forwarding.release_buffer?_of_ne f (Ne.symm hj), if_neg hj]
    rfl

theorem Forwarding.refsOf_grant {f f' : Forwarding} (hf : f.wf) {stamp : Stamp} {arrival : Origin} {h : RouteHeader}
    {payload : List Byte} {i : Nat} (hg : f.grant stamp arrival h payload = some (i, f')) (j : Nat) :
    f'.refsOf j = f.refsOf j + if i = j then 1 else 0 := by
  obtain ⟨hfree, hnew, hother⟩ := Forwarding.grant_buffer? hf hg
  by_cases hj : i = j
  · subst hj
    rw [Forwarding.refsOf_of_buffer? hnew, Forwarding.refsOf_of_free hfree, if_pos rfl]
  · rw [Forwarding.refsOf, hother j (Ne.symm hj), if_neg hj]
    rfl

/-! ### Holders -/

theorem EgressQueue.holds_eq (q : EgressQueue) (i : Nat) :
    q.holds i = q.c3.count i + q.c2.count i + q.c1.count i + q.c0.count i := by
  simp [EgressQueue.holds, EgressQueue.entries, Function.comp_def, Nat.add_assoc]

@[simp] theorem EgressQueue.holds_empty (i : Nat) : EgressQueue.empty.holds i = 0 := rfl

theorem List.count_singleton_ite (i j : Nat) : [i].count j = if i = j then 1 else 0 := by
  simp [List.count_singleton]

theorem EgressQueue.holds_push (q : EgressQueue) (u : Urgency) (i j : Nat) :
    (q.push u i).holds j = q.holds j + if i = j then 1 else 0 := by
  cases u <;>
    simp only [EgressQueue.holds_eq, EgressQueue.push, EgressQueue.setClass, EgressQueue.klass, List.count_append,
      List.count_singleton_ite] <;> omega

/-- The head that a selection takes, class by class (R127). -/
theorem EgressQueue.pop?_eq_some {q q' : EgressQueue} {i : Nat} (h : q.pop? = some (i, q')) :
    ∃ u l, q.klass u = i :: l ∧ q' = q.setClass u l ∧ ∀ w, u.toNat < w.toNat → q.klass w = [] := by
  obtain ⟨c3, c2, c1, c0⟩ := q
  have hu3 : ∀ w : Urgency, ¬ 3 < w.toNat := by intro w; cases w <;> decide
  have hu2 : ∀ w : Urgency, 2 < w.toNat → w = .u3 := by intro w; cases w <;> decide
  have hu1 : ∀ w : Urgency, 1 < w.toNat → w = .u3 ∨ w = .u2 := by intro w; cases w <;> decide
  have hu0 : ∀ w : Urgency, 0 < w.toNat → w = .u3 ∨ w = .u2 ∨ w = .u1 := by intro w; cases w <;> decide
  simp only [EgressQueue.pop?] at h
  split at h <;> cases h
  · exact ⟨.u3, _, rfl, rfl, fun w hw => absurd hw (hu3 w)⟩
  · refine ⟨.u2, _, rfl, rfl, fun w hw => ?_⟩
    obtain rfl := hu2 w hw
    rfl
  · refine ⟨.u1, _, rfl, rfl, fun w hw => ?_⟩
    obtain rfl | rfl := hu1 w hw <;> rfl
  · refine ⟨.u0, _, rfl, rfl, fun w hw => ?_⟩
    obtain rfl | rfl | rfl := hu0 w hw <;> rfl

theorem EgressQueue.holds_pop? {q q' : EgressQueue} {i : Nat} (h : q.pop? = some (i, q')) (j : Nat) :
    q.holds j = q'.holds j + if i = j then 1 else 0 := by
  obtain ⟨u, l, hu, rfl, -⟩ := EgressQueue.pop?_eq_some h
  cases u <;> simp only [EgressQueue.klass] at hu <;>
    simp only [EgressQueue.holds_eq, EgressQueue.setClass, hu, List.count_cons, beq_iff_eq] <;> omega

/-- Counts that agree on all ports but one differ in sum by that port's. -/
theorem sum_ports_of_ne {f g : Port → Nat} {p : Port} (h : ∀ q, q ≠ p → f q = g q) :
    (Port.all.map f).sum + g p = (Port.all.map g).sum + f p := by
  have h0 := h .p0; have h1 := h .p1; have h2 := h .p2; have h3 := h .p3; have h4 := h .p4
  cases p <;> simp [Port.all] at h0 h1 h2 h3 h4 ⊢ <;> omega

theorem State.holders_of_port {s t : State} {p : Port} {i : Nat} (h : ∀ q, q ≠ p → t.portHolders i q = s.portHolders i q)
    (hd : t.lpc.queue = s.lpc.queue) :
    t.holders i + s.portHolders i p = s.holders i + t.portHolders i p := by
  have := sum_ports_of_ne h
  rw [State.holders, State.holders, hd]
  omega

theorem State.holders_of_queues (s t : State) (hli : s.li = t.li) (hq : s.fe.queues = t.fe.queues)
    (hd : s.lpc.queue = t.lpc.queue) (i : Nat) : s.holders i = t.holders i := by
  have hport : s.portHolders i = t.portHolders i := by
    funext p
    simp only [State.portHolders, State.rx, State.tx, State.queue, hli, hq]
  rw [State.holders, State.holders, hport, hd]

theorem State.holders_setQueue (s : State) (p : Port) (q : EgressQueue) (i : Nat) :
    (s.setQueue p q).holders i + (s.queue p).holds i = s.holders i + q.holds i := by
  have h := State.holders_of_port (s := s) (t := s.setQueue p q) (p := p) (i := i)
    (fun r hr => by simp [State.portHolders, State.setQueue_queue_of_ne s q hr]) rfl
  simp only [State.portHolders, State.setQueue_rx, State.setQueue_tx, State.setQueue_queue_self] at h
  omega

theorem State.holders_setTx (s : State) (p : Port) (x : Transmission) (i : Nat) :
    (s.setTx p x).holders i + (s.tx p).holds i = s.holders i + x.holds i := by
  have h := State.holders_of_port (s := s) (t := s.setTx p x) (p := p) (i := i)
    (fun r hr => by simp [State.portHolders, State.setTx_tx_of_ne s x hr]) rfl
  simp only [State.portHolders, State.setTx_rx, State.setTx_tx_self, State.setTx_queue] at h
  omega

theorem State.holders_setRx (s : State) (p : Port) (x : Reception) (i : Nat) :
    (s.setRx p x).holders i + (s.rx p).holds i = s.holders i + x.holds i := by
  have h := State.holders_of_port (s := s) (t := s.setRx p x) (p := p) (i := i)
    (fun r hr => by simp [State.portHolders, State.setRx_rx_of_ne s x hr]) rfl
  simp only [State.portHolders, State.setRx_tx, State.setRx_rx_self, State.setRx_queue] at h
  omega

theorem State.holders_setDeliveries (s : State) (l : List Nat) (i : Nat) :
    (s.setDeliveries l).holders i + s.lpc.queue.count i = s.holders i + l.count i := by
  have h : (Port.all.map ((s.setDeliveries l).portHolders i)).sum = (Port.all.map (s.portHolders i)).sum := rfl
  simp only [State.holders, State.setDeliveries_lpc]
  omega

/-! ### References held by an operation in progress -/

/-- The pool is in its form, and each reference of a buffer has its holder: one of the state's, or one of the `extra`
references that the operation in progress has in hand. -/
def State.balanced (s : State) (extra : Nat → Nat) : Prop :=
  s.fe.wf ∧ ∀ i, s.fe.refsOf i = s.holders i + extra i

/-- One reference to buffer `i` in hand. -/
def oneRef (i j : Nat) : Nat := if i = j then 1 else 0

section
variable {s : State} {extra : Nat → Nat}

theorem State.balanced.exists_buffer {s : State} {extra : Nat → Nat} (h : s.balanced extra) {i : Nat}
    (hi : 0 < s.holders i + extra i) : ∃ b, s.fe.buffer? i = some b :=
  Forwarding.exists_buffer?_of_refsOf (by rw [h.2]; exact hi)

theorem State.balanced.setQueue (h : s.balanced extra) (p : Port) (q : EgressQueue) {extra' : Nat → Nat}
    (he : ∀ i, extra i + (s.queue p).holds i = extra' i + q.holds i) : (s.setQueue p q).balanced extra' := by
  refine ⟨h.1, fun i => ?_⟩
  have hrefs : (s.setQueue p q).fe.refsOf i = s.fe.refsOf i := rfl
  have := h.2 i; have := s.holders_setQueue p q i; have := he i
  omega

theorem State.balanced.setTx (h : s.balanced extra) (p : Port) (x : Transmission) {extra' : Nat → Nat}
    (he : ∀ i, extra i + (s.tx p).holds i = extra' i + x.holds i) : (s.setTx p x).balanced extra' := by
  refine ⟨h.1, fun i => ?_⟩
  have hrefs : (s.setTx p x).fe.refsOf i = s.fe.refsOf i := rfl
  have := h.2 i; have := s.holders_setTx p x i; have := he i
  omega

theorem State.balanced.setRx (h : s.balanced extra) (p : Port) (x : Reception) {extra' : Nat → Nat}
    (he : ∀ i, extra i + (s.rx p).holds i = extra' i + x.holds i) : (s.setRx p x).balanced extra' := by
  refine ⟨h.1, fun i => ?_⟩
  have hrefs : (s.setRx p x).fe.refsOf i = s.fe.refsOf i := rfl
  have := h.2 i; have := s.holders_setRx p x i; have := he i
  omega

theorem State.balanced.setDeliveries (h : s.balanced extra) (l : List Nat) {extra' : Nat → Nat}
    (he : ∀ i, extra i + s.lpc.queue.count i = extra' i + l.count i) : (s.setDeliveries l).balanced extra' := by
  refine ⟨h.1, fun i => ?_⟩
  have hrefs : (s.setDeliveries l).fe.refsOf i = s.fe.refsOf i := rfl
  have := h.2 i; have := s.holders_setDeliveries l i; have := he i
  omega

/-- A reference in hand given back (R116). -/
theorem State.balanced.release {i : Nat} (h : s.balanced (fun j => extra j + oneRef i j)) : (s.release i).balanced extra := by
  refine ⟨Forwarding.release_wf h.1 i, fun j => ?_⟩
  have hholders : (s.release i).holders j = s.holders j := rfl
  have := h.2 j
  have hrel := Forwarding.refsOf_release h.1 i j
  simp only [oneRef] at this
  rw [State.release_fe, hholders, hrel]
  omega

/-- A further reference taken to a buffer in use (R116). -/
theorem State.balanced.addRef (h : s.balanced extra) {i : Nat} {f : Buffer → Buffer} (hid : ∀ b, (f b).id = b.id)
    (hrefs : ∀ b, (f b).refs = b.refs + 1) (hi : 0 < s.holders i + extra i) :
    State.balanced { s with fe := s.fe.update i f } (fun j => extra j + oneRef i j) := by
  refine ⟨Forwarding.update_wf h.1 i f hid (fun b _ => by rw [hrefs]; omega), fun j => ?_⟩
  have hholders : State.holders { s with fe := s.fe.update i f } j = s.holders j := rfl
  have := h.2 j
  have hadd := s.fe.refsOf_addRef i hid hrefs (by rw [h.2]; exact hi) j
  simp only [oneRef, hholders]
  omega

/-- A buffer changed but for its number and references. -/
theorem State.balanced.update (h : s.balanced extra) (i : Nat) {f : Buffer → Buffer} (hid : ∀ b, (f b).id = b.id)
    (hrefs : ∀ b, (f b).refs = b.refs) : State.balanced { s with fe := s.fe.update i f } extra := by
  refine ⟨Forwarding.update_wf h.1 i f hid (fun b hb => by rw [hrefs]; exact hb), fun j => ?_⟩
  have hholders : State.holders { s with fe := s.fe.update i f } j = s.holders j := rfl
  rw [hholders, ← h.2]
  exact s.fe.refsOf_update i hid hrefs j

/-! ### Selection, copies and deliveries -/

theorem select_balanced (p : Port) (h : s.balanced extra) : (s.select p).balanced extra := by
  have hpop : ∀ {s : State} {i : Nat} {q : EgressQueue}, s.balanced extra → (s.queue p).pop? = some (i, q) →
      (s.setQueue p q).balanced (fun j => extra j + oneRef i j) := fun h hq =>
    h.setQueue p _ fun j => by rw [EgressQueue.holds_pop? hq]; simp only [oneRef]; omega
  refine select_induct (P := fun s => s.balanced extra) ?_ ?_ ?_ ?_ h
  · intro s h htx _
    have hsent : (s.setTx p (.hail (s.buildHail p ((s.link p).lastSent + 1)))).balanced extra :=
      h.setTx p _ fun i => by rw [htx]; rfl
    exact hsent
  · intro s i q h hq hb
    have hheld := EgressQueue.holds_pop? hq i
    have hone := Forwarding.refsOf_of_free hb
    have hsum := h.2 i
    have hport := s.holders_setQueue p q i
    rw [if_pos rfl] at hheld
    omega
  · intro s i q b h hq _
    exact (hpop h hq).release
  · intro s i q b h htx hq hb _
    have hid := Forwarding.id_of_buffer? hb
    refine (hpop h hq).setTx p _ fun j => ?_
    rw [State.setQueue_tx, htx]
    simp only [Transmission.holds, oneRef, hid]
    omega

theorem joined_balanced {i : Nat} (u : Urgency) (p : Port) (h : s.balanced extra) (hi : 0 < extra i) :
    (s.joined i u p).balanced extra := by
  have href := h.addRef (i := i) (f := fun b => { b with refs := b.refs + 1, used := b.used.set p true })
    (fun _ => rfl) (fun _ => rfl) (by omega)
  refine href.setQueue p _ fun j => ?_
  rw [EgressQueue.holds_push, oneRef]
  omega

theorem placeCopies_balanced {i : Nat} (u : Urgency) (ports : List Port) (h : s.balanced extra) (hi : 0 < extra i) :
    (placeCopies i u ports s).1.balanced extra :=
  placeCopies_induct (P := fun s => s.balanced extra) (fun _ p h _ => joined_balanced u p h hi) (fun _ _ h => h)
    (fun _ p h => select_balanced p h) ports s h

theorem tryDeliver_balanced (h : s.balanced extra) : s.tryDeliver.balanced extra := by
  have hpop : ∀ {s : State} {i : Nat} {l : List Nat}, s.balanced extra → s.lpc.queue = i :: l →
      (s.setDeliveries l).balanced (fun j => extra j + oneRef i j) := fun h hq =>
    h.setDeliveries _ fun j => by
      rw [hq, List.count_cons, oneRef]
      simp only [beq_iff_eq]
      omega
  refine tryDeliver_induct (P := fun s => s.balanced extra) ?_ ?_ ?_ h
  · intro s i l h hq hb
    have hone := Forwarding.refsOf_of_free hb
    have hsum := h.2 i
    have hhead : 0 < s.lpc.queue.count i := by rw [hq]; simp
    simp only [State.holders] at hsum
    omega
  · intro s i l b h hq _
    exact (hpop h hq).release
  · intro s i l b h _ _ _
    exact h

theorem placeLocal_balanced {i : Nat} (h : s.balanced extra) (hi : 0 < extra i) : (s.placeLocal i).balanced extra := by
  rcases placeLocal_cases s i with ⟨-, e⟩ | ⟨-, e⟩ <;> rw [e]
  · have href := h.addRef (i := i) (f := fun b => { b with refs := b.refs + 1 }) (fun _ => rfl) (fun _ => rfl) (by omega)
    have hjoin : (s.joinedLocal i).balanced extra := href.setDeliveries _ fun j => by
      show _ + s.lpc.queue.count j = _
      rw [List.count_append, List.count_singleton_ite, oneRef]
      omega
    exact tryDeliver_balanced hjoin
  · exact h

theorem makeCopies_balanced {b : Buffer} (h : s.balanced extra) (hi : 0 < extra b.id) :
    (s.makeCopies b).1.balanced extra :=
  makeCopies_induct (P := fun s => s.balanced extra) (fun _ _ h => h) (fun _ h => placeCopies_balanced _ _ h hi)
    (fun _ h => placeLocal_balanced h hi) h

/-! ### Queue work -/

/-- What happens to an entry whose buffer is in use: it gives back its reference, or moves with it (R130). -/
theorem flushEntry_of_held (p : Port) {s : State} {e : Urgency × Nat} {b : Buffer} (hb : s.fe.buffer? e.2 = some b) :
    (∃ c : CounterName, State.flushEntry p s e = (s.release b.id).count c)
    ∨ ∃ r, State.flushEntry p s e = ((s.rejoined b.id e.1 r).count (.port p .reaimed)).select r := by
  simp only [State.flushEntry, hb]
  cases b.header.kind with
  | flood => exact .inl ⟨_, rfl⟩
  | aimed =>
    cases s.reaimPort b with
    | none => exact .inl ⟨_, rfl⟩
    | some r =>
      dsimp only
      split
      · exact .inr ⟨r, rfl⟩
      · exact .inl ⟨_, rfl⟩

theorem flushEntry_balanced (p : Port) (e : Urgency × Nat) (h : s.balanced (fun j => extra j + oneRef e.2 j)) :
    (State.flushEntry p s e).balanced extra := by
  obtain ⟨b, hb⟩ := h.exists_buffer (i := e.2) (by simp [oneRef])
  have hid := Forwarding.id_of_buffer? hb
  obtain ⟨c, h'⟩ | ⟨r, h'⟩ := flushEntry_of_held p hb <;> rw [h', hid]
  · exact h.release
  · have hused := h.update e.2 (f := fun b => { b with used := b.used.set r true }) (fun _ => rfl) (fun _ => rfl)
    have hmoved : (s.rejoined e.2 e.1 r).balanced extra := hused.setQueue r _ fun j => by
      rw [EgressQueue.holds_push, oneRef]
      omega
    exact select_balanced r hmoved

theorem flushEntries_balanced (p : Port) (l : List (Urgency × Nat)) :
    ∀ {s : State}, s.balanced (fun j => extra j + (l.map Prod.snd).count j) →
      (l.foldl (State.flushEntry p) s).balanced extra := by
  induction l with
  | nil => exact fun h => h
  | cons e l ih =>
    intro s h
    refine ih (flushEntry_balanced p e ⟨h.1, fun j => ?_⟩)
    rw [h.2]
    simp only [List.map_cons, List.count_cons, oneRef, beq_iff_eq]
    omega

theorem flush_balanced (p : Port) (h : s.balanced extra) : (s.flush p).balanced extra :=
  flushEntries_balanced p _ (h.setQueue p .empty fun _ => by
    rw [EgressQueue.holds_empty, EgressQueue.holds]
    omega)

theorem linkWork_keeps_balance (p : Port) : KeptByLinkWork (fun s => s.balanced extra) p :=
  ⟨fun _ _ _ _ h => h, fun _ h => flush_balanced p h⟩

/-! ### Arrivals -/

theorem handOver_balanced (p : Port) {b : Buffer} (h : s.balanced extra) (hi : 0 < extra b.id) :
    (s.handOver p b).balanced extra := by
  have hfiltered : (s.filtered p b).balanced extra := h
  rw [handOver_eq]
  split
  · exact makeCopies_balanced hfiltered hi
  · exact hfiltered

theorem endTraffic_balanced (p : Port) {i : Nat} (f : Frame) (h : s.balanced (fun j => extra j + oneRef i j)) :
    (s.endTraffic p i f).balanced extra := by
  rcases endTraffic_cases s p i f with e | ⟨hd, payload, h'⟩
  · rw [e]
    exact State.balanced.release (s := s.count _) h
  · have hstored := h.update i (f := fun b => { b with header := hd, payload := payload }) (fun _ => rfl) (fun _ => rfl)
    rcases h' with ⟨hfree, -⟩ | ⟨b, hb, e⟩
    · obtain ⟨b, hb⟩ := hstored.exists_buffer (i := i) (by simp [oneRef])
      rw [hfree] at hb
      cases hb
    · rw [e]
      have hid := Forwarding.id_of_buffer? hb
      refine State.balanced.release (handOver_balanced p ?_ (by simp [hid, oneRef]))
      exact hstored

theorem beginTraffic_balanced {p : Port} (hrx : s.rx p = .idle) (h : s.balanced extra) :
    (s.beginTraffic p).balanced extra := by
  rcases beginTraffic_cases s p with ⟨i, fe, hg, e⟩ | ⟨-, e⟩ <;> rw [e]
  · obtain ⟨-, -, hwf, hqueues, -⟩ := (Forwarding.grant_spec h.1 _ _ _ _).2 i fe hg
    have hgranted : State.balanced { s with fe := fe } (fun j => extra j + oneRef i j) := by
      refine ⟨hwf, fun j => ?_⟩
      have hrefs := Forwarding.refsOf_grant h.1 hg j
      have := h.2 j
      rw [State.holders_of_queues { s with fe := fe } s rfl hqueues rfl]
      simp only [oneRef]
      omega
    refine hgranted.setRx p _ fun j => ?_
    have hidle : State.rx { s with fe := fe } p = .idle := hrx
    rw [hidle]
    simp only [Reception.holds, oneRef]
    omega
  · have hcounted : (s.count (.port p .rxNoBuffer)).balanced extra := h
    exact hcounted.setRx p _ fun j => by rw [State.count_rx, hrx]; rfl

end

/-! ### REJOIN -/

theorem refsOf_releaseAll (l : List Nat) (i : Nat) :
    ∀ {s : State}, s.fe.wf → (s.releaseAll l).fe.refsOf i = s.fe.refsOf i - l.count i := by
  induction l with
  | nil => exact fun _ => rfl
  | cons j l ih =>
    intro s h
    have hrest := ih (s := s.release j) (Forwarding.release_wf h j)
    have hrel := Forwarding.refsOf_release h j i
    rw [State.release_fe, hrel] at hrest
    simp only [List.count_cons, beq_iff_eq]
    show ((s.release j).releaseAll l).fe.refsOf i = _
    omega

theorem State.releaseAll_frame (l : List Nat) : ∀ s : State,
    s.releaseAll l = { s with fe := { (s.releaseAll l).fe with queues := s.fe.queues } } := by
  induction l with
  | nil => exact fun _ => rfl
  | cons i l ih => exact fun s => ih (s.release i)

theorem count_queued (s : State) (i : Nat) :
    s.queued.count i = (Port.all.map (fun p => (s.queue p).holds i)).sum + s.lpc.queue.count i := by
  simp [State.queued, EgressQueue.holds, EgressQueue.buffers, PerPort.toList, Port.all, State.queue, PerPort.get,
    Nat.add_assoc]

theorem Reception.holds_abandon (x : Reception) (i : Nat) : x.abandon.holds i = x.holds i := by
  cases x <;> rfl

theorem rejoinBlocks_rx (s : State) (p : Port) : s.rejoinBlocks.rx p = (s.rx p).abandon := by
  have h : s.rejoinBlocks.rx p
      = ((s.emptyQueues.li.mapPort (fun _ i => { i with rx := i.rx.abandon })).get p).rx := rfl
  rw [h, PerPort.get_mapPort, State.emptyQueues, State.releaseAll_frame]
  rfl

theorem rejoinBlocks_tx (s : State) (p : Port) : s.rejoinBlocks.tx p = s.tx p := by
  have h : s.rejoinBlocks.tx p
      = ((s.emptyQueues.li.mapPort (fun _ i => { i with rx := i.rx.abandon })).get p).tx := rfl
  rw [h, PerPort.get_mapPort, State.emptyQueues, State.releaseAll_frame]
  rfl

theorem rejoinBlocks_queue (s : State) (p : Port) : s.rejoinBlocks.queue p = .empty := PerPort.get_fill _ _

theorem LocalPort.cutDelivery_queue (l : LocalPort) : l.cutDelivery.queue = l.queue := by
  simp only [LocalPort.cutDelivery]
  split <;> rfl

/-- After REJOIN the receptions and the transmissions hold what they held, and nothing else holds a buffer. -/
theorem rejoinBlocks_holders (s : State) (i : Nat) :
    s.rejoinBlocks.holders i + s.queued.count i = s.holders i := by
  have hdeliveries : s.rejoinBlocks.lpc.queue = [] := LocalPort.cutDelivery_queue _
  rw [count_queued, State.holders, hdeliveries]
  simp only [State.holders, State.portHolders, rejoinBlocks_rx, rejoinBlocks_tx, rejoinBlocks_queue,
    Reception.holds_abandon, EgressQueue.holds_empty, Port.all, List.map_cons, List.map_nil, List.sum_cons,
    List.sum_nil, List.count_nil]
  omega

theorem rejoinBlocks_refsOf {s : State} (h : s.fe.wf) (i : Nat) :
    s.rejoinBlocks.fe.refsOf i = s.fe.refsOf i - s.queued.count i :=
  refsOf_releaseAll s.queued i h

theorem rejoinBlocks_balanced {s : State} (h : s.balanced (fun _ => 0)) : s.rejoinBlocks.balanced (fun _ => 0) := by
  refine ⟨rejoinBlocks_wf h.1, fun i => ?_⟩
  have := rejoinBlocks_refsOf h.1 i; have := rejoinBlocks_holders s i; have := h.2 i
  omega

theorem recompute_balanced {s : State} {extra : Nat → Nat} (h : s.balanced extra) : s.recompute.balanced extra := by
  refine ⟨h.1, fun i => ?_⟩
  rw [State.holders_of_queues s.recompute s rfl rfl rfl]
  exact h.2 i

/-! ### Every move -/

theorem ingress_balanced {s : State} {q : IngressRequest} {i : Nat} {fe : Forwarding} {af : ArrivalFilter}
    (h : s.balanced (fun _ => 0))
    (hg : s.fe.grant s.tu.stamp .loc (s.ingressHeader q) q.payload = some (i, fe)) :
    ((({ s with fe := fe, af := af }.advanceSequence).copiesOf i).1.release i).balanced (fun _ => 0) := by
  obtain ⟨-, -, hwf, hqueues, -⟩ := (Forwarding.grant_spec h.1 _ _ _ _).2 i fe hg
  obtain ⟨-, hnew, -⟩ := Forwarding.grant_buffer? h.1 hg
  have hgranted : State.balanced ({ s with fe := fe, af := af }.advanceSequence) (fun j => 0 + oneRef i j) := by
    refine ⟨hwf, fun j => ?_⟩
    have hrefs := Forwarding.refsOf_grant h.1 hg j
    have := h.2 j
    have hholders := State.holders_of_queues ({ s with fe := fe, af := af }.advanceSequence) s rfl hqueues rfl j
    simp only [oneRef, State.advanceSequence_fe] at this ⊢
    omega
  have hbuffer : ({ s with fe := fe, af := af }.advanceSequence).fe.buffer? i = some _ := hnew
  rw [State.copiesOf, hbuffer]
  exact (makeCopies_balanced hgranted (by simp [oneRef])).release

theorem delivered_balanced {s : State} (h : s.balanced (fun _ => 0)) : s.dropDeliveryHead.balanced (fun _ => 0) := by
  rcases dropDeliveryHead_cases s with ⟨-, e⟩ | ⟨i, l, hq, e⟩ <;> rw [e]
  · exact h
  · refine State.balanced.release (h.setDeliveries l fun j => ?_)
    simp only [hq, List.count_cons, beq_iff_eq, oneRef]
    omega

theorem Bookkeeping.holders {s t : State} (h : Bookkeeping s t) (i : Nat) : t.holders i = s.holders i :=
  State.holders_of_queues t s h.li (congrArg Forwarding.queues h.fe) h.deliveries i

theorem reset_holders (i : Nat) : State.reset.holders i = 0 := rfl

theorem Move.keeps_balance {s t : State} (m : Move s t) (h : s.balanced (fun _ => 0)) : t.balanced (fun _ => 0) := by
  refine ⟨m.keeps_wf h.1, ?_⟩
  suffices hb : t.balanced (fun _ => 0) from hb.2
  cases m with
  | bookkeeping hb =>
    refine ⟨hb.fe ▸ h.1, fun i => ?_⟩
    rw [hb.fe, hb.holders]
    exact h.2 i
  | powerOn hp =>
    obtain ⟨ht, hlpc⟩ := execPowerOn_next hp
    refine ⟨by rw [ht]; exact Forwarding.powerOn_wf, fun i => ?_⟩
    rw [State.holders_of_queues t State.reset (by rw [ht]) (by rw [ht]) (by rw [hlpc]; rfl), reset_holders, ht]
    rfl
  | select p => exact select_balanced p h
  | deliver => exact tryDeliver_balanced h
  | claim _ hrx => exact beginTraffic_balanced hrx h
  | receive x hx _ hrx => exact h.setRx _ x fun i => by rw [hrx, hx]; rfl
  | endReception hrx => exact h.setRx _ .idle fun i => by rw [hrx]; rfl
  | endTraffic f hrx =>
    refine endTraffic_balanced _ f (h.setRx _ .idle fun j => ?_)
    rw [hrx]
    simp only [Reception.holds, oneRef]
    omega
  | dropTraffic hrx =>
    refine State.balanced.release (h.setRx _ .idle fun j => ?_)
    rw [hrx]
    simp only [Reception.holds, oneRef]
    omega
  | @hail p a _ m hrx _ =>
    have hidle : (s.setRx p .idle).balanced (fun _ => 0) := h.setRx p .idle fun i => by rw [hrx]; rfl
    exact (linkWork_keeps_balance p).hail a m (s := (s.setRx p .idle).count _) hidle
  | statusWord => exact (linkWork_keeps_balance _).statusWord _ h
  | hailDeparted htx => exact h.setTx _ .idle fun i => by rw [htx]; rfl
  | @trafficDeparted p i m htx =>
    have hback : (s.setTx p .idle).balanced (fun j => 0 + oneRef i j) := h.setTx p .idle fun j => by
      rw [htx]
      simp only [Transmission.holds, oneRef]
      omega
    exact hback.release
  | hailTimer => exact h
  | silent => exact (linkWork_keeps_balance _).silent h
  | timer => exact (linkWork_keeps_balance _).timerEvent h
  | settle => exact (linkWork_keeps_balance _).settleEvent h
  | act a => exact (linkWork_keeps_balance a.1).act a.2 h
  | ingress _ hg => exact ingress_balanced h hg
  | delivered => exact delivered_balanced h
  | start => exact h
  | rejoin => exact recompute_balanced (rejoinBlocks_balanced h)
  | configure => exact h

theorem State.balanced_iff (s : State) : s.balanced (fun _ => 0) ↔ s.fe.wf ∧ s.referencesCounted := Iff.rfl

theorem Move.keeps_references {s t : State} (m : Move s t) (h : s.fe.wf ∧ s.referencesCounted) :
    t.fe.wf ∧ t.referencesCounted :=
  t.balanced_iff.1 (m.keeps_balance (s.balanced_iff.2 h))

/-- Settles O53: every move keeps the pool's form and the balance of references and holders. -/
theorem stepKeepsReferencesCounted : Obligations.StepKeepsReferencesCounted := by
  unfold Obligations.StepKeepsReferencesCounted
  have hform := @step_keeps (fun s => s.fe.wf) fun _ _ m => m.keeps_wf
  have hcounted := @step_keeps (fun s => s.fe.wf ∧ s.referencesCounted) fun _ _ m => m.keeps_references
  exact ⟨fun s t hs => @hform s t hs, fun s t hs => @hcounted s t hs⟩

end Sys2Proof.Machine

/-! The link records of the ports after each move: one event of the Link Monitor on one port at most, and the laws of
a link record, its margins and its hold duration that every event keeps (R39, R63 to R73). -/

namespace Sys2Proof.Machine

/-! ### The record of the port an event is of -/

/-- The link records of `t` are those of `s`, but that of port `p`, which is `r`. -/
def State.LinksAt (s t : State) (p : Port) (r : LinkRecord) : Prop := ∀ q, t.link q = if q = p then r else s.link q

/-- The link records of `t` are those of `s`, but that of port `p`, which is `r`, and but for HAILs that departed. -/
def State.Relinked (s t : State) (p : Port) (r : LinkRecord) : Prop :=
  ∀ q, (t.link q).hailedFrom (if q = p then r else s.link q)

section
variable {s t : State} {p : Port} {r : LinkRecord}

theorem State.LinksAt.refl (s : State) (p : Port) : s.LinksAt s p (s.link p) := by
  intro q
  split
  · next h => rw [h]
  · rfl

theorem State.LinksAt.self (h : s.LinksAt t p r) : t.link p = r := by rw [h p, if_pos rfl]

theorem State.LinksAt.setLink (h : s.LinksAt t p r) (r' : LinkRecord) : s.LinksAt (t.setLink p r') p r' := by
  intro q
  split
  · next e => rw [e, State.setLink_link_self]
  · next e => rw [State.setLink_link_of_ne _ _ e, h q, if_neg e]

theorem State.LinksAt.transition (h : s.LinksAt t p r) (f : LinkRecord → LinkRecord) :
    s.LinksAt (t.transition p f) p (f r) := by
  intro q
  split
  · next e => rw [e, State.transition_link, h.self]
  · next e => rw [State.transition_link_of_ne _ _ e, h q, if_neg e]

theorem State.LinksAt.countIf (h : s.LinksAt t p r) (b : Bool) (c : CounterName) : s.LinksAt (t.countIf b c) p r := by
  cases b
  · exact h
  · exact h

theorem State.LinksAt.relinked (h : s.LinksAt t p r) : s.Relinked t p r := by
  intro q
  rw [h q]
  exact LinkRecord.hailedFrom_refl _

theorem State.LinksAt.settleRoutes (h : s.LinksAt t p r) (old : LinkState) (always : Bool) :
    s.Relinked (t.settleRoutes p old always) p r := by
  intro q
  rw [← h q]
  exact State.settleRoutes_link t p old always q

theorem State.LinksAt.flush (h : s.LinksAt t p r) (q : Port) : s.Relinked (t.flush q) p r := by
  intro q'
  rw [← h q']
  exact (EgressWork.flush t q).link q'

end

theorem State.transition_image (s : State) (p : Port) (f : LinkRecord → LinkRecord) :
    (s.transition p f).image = s.image := congrArg ServiceLine.image (LineWork.transition s p f).slc

theorem State.transition_now (s : State) (p : Port) (f : LinkRecord → LinkRecord) : (s.transition p f).now = s.now :=
  congrArg TimeUnit.ic (LineWork.transition s p f).tu

theorem State.takeFromNeighbour_image (s : State) (p : Port) (a : Time) (h : Hail) :
    (s.takeFromNeighbour p a h).image = s.image := congrArg ServiceLine.image (LineWork.takeFromNeighbour s p a h).slc

theorem State.takeFromNeighbour_now (s : State) (p : Port) (a : Time) (h : Hail) :
    (s.takeFromNeighbour p a h).now = s.now := congrArg TimeUnit.ic (LineWork.takeFromNeighbour s p a h).tu

/-- A link record after a HAIL of its neighbour, evaluated (R46). -/
def LinkRecord.hailed (r : LinkRecord) (g : Image) (fibre : Bool) (now a : Time) (h : Hail) : LinkRecord :=
  ((r.identify fibre now h).take g fibre now a h).1.evaluate g now false

theorem State.LinksAt.identified (s : State) (p : Port) (a : Time) (h : Hail) :
    s.LinksAt (((s.transition p (fun r => r.identify (fibrePort p) s.now h)).takeFromNeighbour p a h).evaluate p false)
      p ((s.link p).hailed s.image (fibrePort p) s.now a h) := by
  have hid := (State.LinksAt.refl s p).transition (fun r => r.identify (fibrePort p) s.now h)
  have htaken := (hid.setLink ((((s.link p).identify (fibrePort p) s.now h)).take s.image (fibrePort p) s.now a h).1)
  have := (htaken.countIf (((s.link p).identify (fibrePort p) s.now h).take s.image (fibrePort p) s.now a h).2
    (.port p .delayOutlier)).transition (fun r => r.evaluate s.image s.now false)
  simp only [State.evaluate, State.takeFromNeighbour_image, State.takeFromNeighbour_now, State.transition_image,
    State.transition_now]
  simp only [State.takeFromNeighbour, hid.self, State.transition_image, State.transition_now]
  exact this

theorem selfHail_relinked (s : State) (p : Port) :
    s.Relinked (s.selfHail p) p ((s.link p).selfHail (fibrePort p) s.now) :=
  State.LinksAt.settleRoutes (t := (s.transition p _).forgetCosts p)
    ((State.LinksAt.refl s p).transition (fun r => r.selfHail (fibrePort p) s.now)) _ _

theorem neighbourHail_relinked (s : State) (p : Port) (a : Time) (h : Hail) :
    s.Relinked (s.neighbourHail p a h) p ((s.link p).hailed s.image (fibrePort p) s.now a h) := by
  have hid : s.LinksAt ((((s.transition p (fun r => r.identify (fibrePort p) s.now h)).takeFromNeighbour p a h).evaluate
      p false).takeCosts p h) p ((s.link p).hailed s.image (fibrePort p) s.now a h) :=
    State.LinksAt.identified s p a h
  simp only [State.neighbourHail]
  split
  · exact hid.flush p
  · exact hid.relinked

theorem statusWord_relinked (s : State) (p : Port) (w : StatusWord) :
    s.Relinked (s.statusWord p w) p (((s.link p).word s.image w).evaluate s.image s.now false) :=
  (((State.LinksAt.refl s p).setLink ((s.link p).word s.image w)).transition
    (fun r => r.evaluate s.image s.now false)).settleRoutes _ _

theorem silent_relinked (s : State) (p : Port) :
    s.Relinked (s.silent p) p ((s.link p).silent (fibrePort p) s.now) := by
  have hlinks := (State.LinksAt.refl s p).transition (fun r => r.silent (fibrePort p) s.now)
  simp only [State.silent]
  refine State.LinksAt.settleRoutes ?_ _ _
  split
  · exact hlinks
  · exact hlinks

theorem timerEvent_relinked (s : State) (p : Port) :
    s.Relinked (s.timerEvent p) p ((s.link p).evaluate s.image s.now true) :=
  ((State.LinksAt.refl s p).transition (fun r => r.evaluate s.image s.now true)).settleRoutes _ _

theorem settleEvent_relinked (s : State) (p : Port) :
    s.Relinked (s.settleEvent p) p (((s.link p).settle s.image).evaluate s.image s.now false) :=
  (((State.LinksAt.refl s p).setLink ((s.link p).settle s.image)).transition
    (fun r => r.evaluate s.image s.now false)).settleRoutes _ _

theorem act_relinked (s : State) (p : Port) (a : Action) :
    s.Relinked (s.act (p, a)) p ((s.link p).act s.now a) :=
  ((State.LinksAt.refl s p).setLink ((s.link p).act s.now a)).settleRoutes _ _

/-! ### What a move can do to a record -/

/-- Records that differ in the hail fields, the hail timer and the fade time remainder alone; a power-on record does not
change so. -/
structure LinkRecord.Clerical (r r' : LinkRecord) : Prop where
  frame : r' = { r with hailDue := r'.hailDue, lastSent := r'.lastSent, hailTimer := r'.hailTimer,
                        fadeRemainder := r'.fadeRemainder }
  still : ∀ m, r = .powerOn m → r' = r

theorem LinkRecord.Clerical.refl (r : LinkRecord) : r.Clerical r := ⟨rfl, fun _ _ => rfl⟩

theorem LinkRecord.hailedFrom.clerical {r r' : LinkRecord} (h : r'.hailedFrom r) : r.Clerical r' := by
  obtain ⟨hframe, hstill⟩ := h
  exact ⟨by rw [hframe], fun m hm => hstill (by rw [hm]; rfl)⟩

/-- What an event can make of a port's record, `x` being what the port receives at the time, and `served` whether the
station is in SERVICE after it. -/
inductive LinkEvent (g : Image) (fibre : Bool) (now : Time) (x : Reception) (served : Bool) (r : LinkRecord) :
    LinkRecord → Prop
  | selfHail (hx : x ≠ .idle) : LinkEvent g fibre now x served r (r.selfHail fibre now)
  | hailed (hx : x ≠ .idle) (a : Time) (h : Hail) (hm : inMargin h.farMargin) :
      LinkEvent g fibre now x served r (r.hailed g fibre now a h)
  | word (he : r.enabled = true) (hf : fibre = false) (w : StatusWord) :
      LinkEvent g fibre now x served r ((r.word g w).evaluate g now false)
  | silent (he : r.silence.isSome = true) : LinkEvent g fibre now x served r (r.silent fibre now)
  | timer (he : r.stateTimer.isSome = true) : LinkEvent g fibre now x served r (r.evaluate g now true)
  | settle (he : r.timerExpired .settle now = true) : LinkEvent g fibre now x served r ((r.settle g).evaluate g now false)
  | act (a : Action) : LinkEvent g fibre now x served r (r.act now a)
  | start (hs : served = true) (hg : g.firstFailing = none) : LinkEvent g fibre now x served r (r.start g now)
  | rejoin (he : r.enabled = true) : LinkEvent g fibre now x served r (r.rejoin g fibre now)

/-- What a move can make of a port's record. -/
inductive LinkChange (s t : State) (p : Port) : LinkRecord → Prop
  | reset (h : execPowerOn s = .next t) : LinkChange s t p (powerOnRecord p)
  | clerical {r' : LinkRecord} (h : (s.link p).Clerical r') : LinkChange s t p r'
  | event {r r' : LinkRecord} (h : LinkEvent s.image (fibrePort p) s.now (s.rx p) t.inService (s.link p) r)
      (hc : r.Clerical r') : LinkChange s t p r'

theorem LinkChange.same (s t : State) (p : Port) : LinkChange s t p (s.link p) := .clerical (.refl _)

theorem LinkChange.of_hailedFrom {s t : State} {p : Port} {r' : LinkRecord} (h : r'.hailedFrom (s.link p)) :
    LinkChange s t p r' := .clerical h.clerical

/-- One event on port `p` changes every record as an event or clerically. -/
theorem State.Relinked.change {s t : State} {p : Port} {r : LinkRecord} (h : s.Relinked t p r)
    (he : LinkEvent s.image (fibrePort p) s.now (s.rx p) t.inService (s.link p) r) (q : Port) :
    LinkChange s t q (t.link q) := by
  have hq := h q
  split at hq
  · next e =>
    subst e
    exact .event he hq.clerical
  · exact .of_hailedFrom hq

theorem reset_link (p : Port) : State.reset.link p = powerOnRecord p := by cases p <;> rfl

theorem signedByte_inMargin {n : Nat} (h : n < 256) : inMargin (signedByte n) := by
  simp only [signedByte, inMargin]
  split <;> omega

/-- The far margin of a HAIL is one signed byte (R175). -/
theorem checkHail_farMargin {f : Frame} {h : Hail} (hc : checkHail f = some h) :
    h.farMargin = signedByte (bytesAt f.body 4 1) := by
  simp only [checkHail, Hail.read] at hc
  repeat' split at hc
  all_goals cases hc
  all_goals rfl

theorem checkHail_inMargin {f : Frame} {h : Hail} (hc : checkHail f = some h) : inMargin h.farMargin := by
  rw [checkHail_farMargin hc]
  exact signedByte_inMargin (bytesAt_lt f.body 4 1)

theorem makeCopies_hailedFrom {s : State} (b : Buffer) (q : Port) : ((s.makeCopies b).1.link q).hailedFrom (s.link q) :=
  makeCopies_induct (P := fun t => (t.link q).hailedFrom (s.link q))
    (fun _ _ h => h)
    (fun _ h => LinkRecord.hailedFrom_trans h ((EgressWork.placeCopies _ _ _ _).link q))
    (fun t h => by
      have hlink : (t.placeLocal b.id).link q = t.link q :=
        congrArg (fun lm => lm.get q) (DeliveryWork.placeLocal t b.id).lm
      rw [hlink]; exact h)
    (LinkRecord.hailedFrom_refl _)

theorem endTraffic_hailedFrom (s : State) (p : Port) (i : Nat) (f : Frame) (q : Port) :
    ((s.endTraffic p i f).link q).hailedFrom (s.link q) := by
  rcases endTraffic_cases s p i f with e | ⟨hd, payload, ⟨-, e⟩ | ⟨b, -, e⟩⟩
  · rw [e]; exact LinkRecord.hailedFrom_refl _
  · rw [e]; exact LinkRecord.hailedFrom_refl _
  · rw [e, handOver_eq]
    show (State.link (if _ then _ else _) q).hailedFrom _
    split
    · exact makeCopies_hailedFrom (s := State.filtered _ p b) b q
    · exact LinkRecord.hailedFrom_refl _

theorem copiesOf_hailedFrom (s : State) (i : Nat) (q : Port) : ((s.copiesOf i).1.link q).hailedFrom (s.link q) := by
  simp only [State.copiesOf]
  split
  · exact makeCopies_hailedFrom _ q
  · exact LinkRecord.hailedFrom_refl _

theorem beginTraffic_link (s : State) (p q : Port) : (s.beginTraffic p).link q = s.link q := by
  rcases beginTraffic_cases s p with ⟨i, fe, -, e⟩ | ⟨-, e⟩ <;> (rw [e]; rfl)

theorem startBlocks_link (s : State) (p : Port) :
    s.startBlocks.link p = if s.image.enables p then (s.link p).start s.image s.now else s.link p :=
  PerPort.get_mapPort _ _ p

theorem rejoinBlocks_link (s : State) (p : Port) :
    s.rejoinBlocks.link p = if (s.link p).enabled then (s.link p).rejoin s.image (fibrePort p) s.now else s.link p := by
  have h : s.rejoinBlocks.link p = (s.emptyQueues.lm.mapPort
      (fun p r => if r.enabled then r.rejoin s.image (fibrePort p) s.now else r)).get p := rfl
  rw [h, PerPort.get_mapPort, State.emptyQueues, State.releaseAll_frame]
  rfl

theorem dropDeliveryHead_link (s : State) (p : Port) : s.dropDeliveryHead.link p = s.link p := by
  rcases dropDeliveryHead_cases s with ⟨-, e⟩ | ⟨i, l, -, e⟩ <;> (rw [e]; try rfl)

theorem LinkRecord.silence_of_expired {r : LinkRecord} {g : Image} {now : Time} (h : r.silenceExpired g now = true) :
    r.silence.isSome = true := by
  simp only [LinkRecord.silenceExpired] at h
  split at h
  · next hs => rw [hs]; rfl
  · exact absurd h Bool.false_ne_true

theorem LinkRecord.stateTimer_of_expired {r : LinkRecord} {k : TimerKind} {now : Time}
    (h : r.timerExpired k now = true) : ∃ t, r.stateTimer = some t ∧ t.kind = k := by
  simp only [LinkRecord.timerExpired] at h
  split at h
  · next t hs => exact ⟨t, hs, by simpa using (Bool.and_eq_true_iff.1 h).1⟩
  · exact absurd h Bool.false_ne_true

theorem Bookkeeping.clerical {s t : State} (h : Bookkeeping s t) (p : Port) : (s.link p).Clerical (t.link p) := by
  have hlink := h.link p
  refine ⟨by rw [hlink], fun m hm => ?_⟩
  have h0 := h.remainder p (by rw [hm]; rfl) (by rw [hm]; rfl)
  rw [hlink, h0, hm]
  rfl

/-- Each port's record after a move. -/
theorem Move.link {s t : State} (m : Move s t) (q : Port) : LinkChange s t q (t.link q) := by
  cases m with
  | bookkeeping hb => exact .clerical (hb.clerical q)
  | powerOn hp =>
    have hlink : t.link q = powerOnRecord q := by
      rw [(execPowerOn_next hp).1]
      exact reset_link q
    rw [hlink]
    exact .reset hp
  | select p => exact .of_hailedFrom ((EgressWork.select s p).link q)
  | deliver =>
    have h : s.tryDeliver.link q = s.link q := congrArg (fun lm => lm.get q) (DeliveryWork.tryDeliver s).lm
    rw [h]; exact .same s _ q
  | claim => rw [beginTraffic_link]; exact .same s _ q
  | receive | endReception | dropTraffic | hailDeparted | trafficDeparted | configure => exact .same s _ q
  | @endTraffic p i f => exact .of_hailedFrom (endTraffic_hailedFrom (s.setRx p .idle) p i f q)
  | @hail p a f h hrx hc =>
    have hx : s.rx p ≠ .idle := by rw [hrx]; exact Reception.noConfusion
    simp only [State.hail]
    split
    · exact (selfHail_relinked ((s.setRx p .idle).count _) p).change (s := s) (.selfHail hx) q
    · exact (neighbourHail_relinked ((s.setRx p .idle).count _) p a h).change (s := s)
        (.hailed hx a h (checkHail_inMargin hc)) q
  | @statusWord p word w hf hp hw =>
    have he : (s.link p).enabled = true := (Bool.and_eq_true_iff.1 hf).2
    exact (statusWord_relinked s p w).change (.word he hp w) q
  | @hailTimer p he =>
    by_cases hq : q = p
    · subst hq
      rw [State.setLink_link_self]
      refine .clerical ⟨rfl, fun m hm => ?_⟩
      rw [hm] at he
      exact absurd he Bool.false_ne_true
    · rw [State.setLink_link_of_ne _ _ hq]; exact .same s _ q
  | @silent p he => exact (silent_relinked s p).change (.silent (LinkRecord.silence_of_expired he)) q
  | @timer p k he =>
    obtain ⟨t, ht, -⟩ := LinkRecord.stateTimer_of_expired he
    exact (timerEvent_relinked s p).change (.timer (by rw [ht]; rfl)) q
  | @settle p he => exact (settleEvent_relinked s p).change (.settle he) q
  | act a => exact (act_relinked s a.1 a.2).change (.act a.2) q
  | @ingress r i fe hs hg =>
    have h := copiesOf_hailedFrom ({ s with fe := fe, af := s.af.ingress s.lpc.nextSequence s.now }.advanceSequence) i q
    exact .of_hailedFrom h
  | delivered =>
    have h := dropDeliveryHead_link s q
    exact h ▸ .same s _ q
  | start _ hg =>
    rw [startBlocks_link]
    split
    · exact .event (.start rfl hg) (.refl _)
    · exact .same s _ q
  | rejoin =>
    rw [State.recompute_link, rejoinBlocks_link]
    split
    · next he => exact .event (.rejoin he) (.refl _)
    · exact .same s _ q

end Sys2Proof.Machine

/-! The laws of a link record that every step keeps: the record's own (R38, R66 to R68), its margins' (R59, R63, R65)
and its hold duration's (R72); and the dormancy of disabled ports (R4, R5, R39). -/

namespace Sys2Proof.Machine

/-! ### Lawful records -/

section
variable {r : LinkRecord} {g : Image} {fibre : Bool} {now : Time}

theorem powerOn_lawful (m : Option Int) : (LinkRecord.powerOn m).lawful := by
  simp [LinkRecord.lawful, LinkRecord.powerOn, LinkState.serving, timerFits]

theorem LinkRecord.lawful.clerical {r' : LinkRecord} (h : r.lawful) (hc : r.Clerical r') : r'.lawful := by
  rw [hc.frame]
  exact h

/-- A change of state keeps the laws if the new state, cause and timer fit each other. -/
theorem LinkRecord.lawful.change (h : r.lawful) {x : LinkState} {c : Option FadeCause} {t : Option StateTimer}
    (hserving : x.serving = true → r.neighbour.isSome = true ∧ r.delay.isSome = true)
    (hcause : c.isSome = true ↔ x = .faded) (htimer : timerFits x t = true) (hoff : x ≠ .off) :
    (r.change now x c t).lawful := by
  obtain ⟨-, -, -, hdelay, hrun, hlast, -⟩ := h
  exact ⟨hserving, hcause, htimer, hdelay, hrun, hlast, fun _ => hoff⟩

theorem LinkRecord.lawful.change_seeking (h : r.lawful) : (r.change now .seeking none none).lawful :=
  h.change (fun hs => Bool.noConfusion hs) (by decide) rfl (by decide)

theorem LinkRecord.lawful.enterUsable (h : r.lawful) (hn : r.neighbour.isSome = true) (hd : r.delay.isSome = true) :
    (r.enterUsable g now).lawful := by
  simp only [LinkRecord.enterUsable]
  split
  · exact h.change (fun _ => ⟨hn, hd⟩) (by decide) rfl (by decide)
  · exact h.change (fun _ => ⟨hn, hd⟩) (by decide) rfl (by decide)

/-- A timer that fits one usable state fits the other. -/
theorem timerFits_of_usable {x y : LinkState} {t : Option StateTimer} (hx : x.usable = true) (hy : y.usable = true)
    (h : timerFits x t = true) : timerFits y t = true := by
  have hhold : ∀ z : LinkState, z.usable = true → z ≠ .hold ∧ z ≠ .trial := by intro z; cases z <;> decide
  obtain ⟨hxh, hxt⟩ := hhold x hx
  obtain ⟨hyh, hyt⟩ := hhold y hy
  cases t with
  | none => simp [timerFits, hyh, hyt]
  | some t =>
    obtain ⟨k, start, d⟩ := t
    cases k
    · simp [timerFits, hxh] at h
    · simp [timerFits, hxt] at h
    · exact hy

theorem LinkRecord.lawful.evaluate (h : r.lawful) (timer : Bool) : (r.evaluate g now timer).lawful := by
  have ⟨hserving, _, htimer, _⟩ := h
  rcases r.evaluate_cases g now timer with e | ⟨-, hn, hd, -, -, e⟩ | ⟨-, -, e⟩ | ⟨hu, -, e⟩ | ⟨hs, -, -, e⟩ |
    ⟨hs, -, e⟩ | ⟨hs, -, -, e⟩ | ⟨hs, -, e⟩ | ⟨hs, -, -, e⟩ | ⟨hs, -, -, e⟩ <;> rw [e]
  · exact h
  · exact h.enterUsable hn hd
  · exact h.change_seeking
  · have hs : r.state.serving = true := by revert hu; cases r.state <;> decide
    exact h.change (fun _ => hserving hs) (by decide) rfl (by decide)
  · rw [hs] at htimer hserving
    exact h.change (fun _ => hserving rfl) (by decide) (timerFits_of_usable rfl rfl htimer) (by decide)
  · rw [hs] at htimer hserving
    exact h.change (fun _ => hserving rfl) (by decide) (timerFits_of_usable rfl rfl htimer) (by decide)
  · rw [hs] at hserving
    exact h.change (fun _ => hserving rfl) (by decide) rfl (by decide)
  · have hs' : r.state.serving = true := by rcases hs with hs | hs <;> rw [hs] <;> rfl
    have hfaded : (r.change now .faded (some .rain) none).lawful :=
      h.change (fun _ => hserving hs') (by decide) rfl (by decide)
    exact hfaded
  · rw [hs] at hserving
    exact h.change (fun _ => hserving rfl) (by decide) rfl (by decide)
  · rw [hs] at hserving
    obtain ⟨hn, hd⟩ := hserving rfl
    exact h.enterUsable hn hd

/-- A port that seeks and knows no neighbour keeps the laws. -/
theorem lawful_of_forgotten (hs : r.state = .seeking) (hc : r.fadeCause = none) (ht : r.stateTimer = none)
    (hd : r.delay = none) (ho : r.outlierRun = 0) (hl : r.lastHail = none) : r.lawful := by
  simp [LinkRecord.lawful, hs, hc, ht, hd, ho, hl, LinkState.serving, timerFits]

/-- A port out of service may forget its neighbour. -/
theorem LinkRecord.lawful.forget (h : r.lawful) (hs : r.state.serving = false) : (r.forget fibre).lawful := by
  obtain ⟨-, hcause, htimer, -, -, -, hoff⟩ := h
  exact ⟨fun h' => Bool.noConfusion (hs.symm.trans h'), hcause, htimer, by simp [LinkRecord.forget], Nat.zero_le _,
    fun h' => Bool.noConfusion h', hoff⟩

theorem LinkRecord.toSeeking_cases (r : LinkRecord) (now : Time) :
    ((r.state = .drained ∨ r.state = .seeking) ∧ r.toSeeking now = r)
    ∨ (r.state ≠ .drained ∧ r.state ≠ .seeking ∧ r.toSeeking now = r.change now .seeking none none) := by
  simp only [LinkRecord.toSeeking]
  cases r.state <;> simp

theorem LinkRecord.lawful.forget_toSeeking (h : r.lawful) : ((r.forget fibre).toSeeking now).lawful := by
  have hstate : (r.forget fibre).state = r.state := rfl
  rcases (r.forget fibre).toSeeking_cases now with ⟨hs | hs, e⟩ | ⟨-, -, e⟩ <;> rw [e]
  · exact h.forget (by rw [← hstate, hs]; rfl)
  · exact h.forget (by rw [← hstate, hs]; rfl)
  · exact lawful_of_forgotten rfl rfl rfl rfl rfl rfl

theorem LinkRecord.lawful.record (h : r.lawful) (m : Hail) : (r.record m).lawful := by
  obtain ⟨hserving, hcause, htimer, hdelay, hrun, -, hoff⟩ := h
  exact ⟨fun hs => ⟨rfl, (hserving hs).2⟩, hcause, htimer, hdelay, hrun, fun _ => rfl, hoff⟩

theorem LinkRecord.lawful.identify (h : r.lawful) (m : Hail) : (r.identify fibre now m).lawful := by
  simp only [LinkRecord.identify]
  split
  · exact h.record m
  · split
    · exact h
    · exact h.forget_toSeeking.record m

theorem LinkRecord.identify_neighbour (r : LinkRecord) (m : Hail) :
    (r.identify fibre now m).neighbour = some (m.sender, m.senderPort) := by
  simp only [LinkRecord.identify]
  split
  · rfl
  · next n hn =>
    split
    · next e => rw [hn, e]
    · rfl

/-- The delay estimate lies in the range of samples, and the run of outliers below three (R55 to R57). -/
def LinkRecord.estimated (r : LinkRecord) : Prop := (∀ d ∈ r.delay, d ≤ 2000000) ∧ r.outlierRun ≤ 2

theorem filter_estimated (h : r.estimated) {jump x : Nat} (hx : x ≤ 2000000) :
    (r.filter jump x).1.estimated ∧ (r.filter jump x).1.delay.isSome = true := by
  obtain ⟨hdelay, hrun⟩ := h
  simp only [LinkRecord.filter]
  cases hp : r.delay with
  | none => exact ⟨⟨fun d hd => by cases hd; exact hx, hrun⟩, rfl⟩
  | some p =>
    have hpmax : p ≤ 2000000 := hdelay p hp
    dsimp only
    split
    · refine ⟨⟨fun d hd => ?_, Nat.zero_le _⟩, rfl⟩
      cases hd
      omega
    · split
      · next hlt => exact ⟨⟨fun d hd => by cases hd; exact hpmax, Nat.le_of_lt_succ hlt⟩, rfl⟩
      · exact ⟨⟨fun d hd => by cases hd; exact hx, Nat.zero_le _⟩, rfl⟩

theorem sample_estimated (h : r.estimated) (a : Time) (m : Hail) :
    (r.sample g a m).1.estimated ∧ (r.delay.isSome = true → (r.sample g a m).1.delay.isSome = true) := by
  simp only [LinkRecord.sample]
  split
  · exact ⟨h, id⟩
  · split
    · exact ⟨h, id⟩
    · split
      · next e _ _ hrt =>
        obtain ⟨hpos, hmax⟩ := hrt
        simp only [roundTripLimit] at hmax
        obtain ⟨hest, hsome⟩ := filter_estimated h (jump := g.delayJump.toNat)
          (x := (roundTrip a m e / 2).toNat) (by omega)
        exact ⟨hest, fun _ => hsome⟩
      · exact ⟨h, id⟩

theorem LinkRecord.lawful.take (h : r.lawful) (hn : r.neighbour.isSome = true) (a : Time) (m : Hail) :
    (r.take g fibre now a m).1.lawful := by
  obtain ⟨hserving, hcause, htimer, hdelay, hrun, -, hoff⟩ := h
  rw [LinkRecord.take_frame]
  have hest := sample_estimated (g := g) (r := { r with
    silence := some now, neighbourRole := some m.senderRole, neighbourState := some m.senderState,
    far := if fibre then r.far else some m.farMargin }) ⟨hdelay, hrun⟩ a m
  obtain ⟨⟨hdelay', hrun'⟩, hsome⟩ := hest
  exact ⟨fun hs => ⟨hn, hsome (hserving hs).2⟩, hcause, htimer, hdelay', hrun', fun _ => hn, hoff⟩

theorem LinkRecord.lawful.hailed (h : r.lawful) (a : Time) (m : Hail) : (r.hailed g fibre now a m).lawful := by
  refine LinkRecord.lawful.evaluate (LinkRecord.lawful.take (h.identify m) ?_ a m) false
  rw [LinkRecord.identify_neighbour]
  rfl

theorem LinkRecord.lawful.silent (h : r.lawful) : (r.silent fibre now).lawful := by
  obtain ⟨hserving, hcause, htimer, hdelay, hrun, hlast, hoff⟩ := h
  have hquiet : LinkRecord.lawful { r with silence := none, far := if fibre then r.far else none } :=
    ⟨hserving, hcause, htimer, hdelay, hrun, hlast, hoff⟩
  have hfade : r.state.serving = true →
      (LinkRecord.change { r with silence := none, far := if fibre then r.far else none } now .faded (some .silent)
        none).lawful :=
    fun hs => hquiet.change (fun _ => hserving hs) (by decide) rfl (by decide)
  simp only [LinkRecord.silent]
  split
  case h_5 hs => exact ⟨hserving, ⟨fun _ => hs, fun _ => rfl⟩, htimer, hdelay, hrun, hlast, hoff⟩
  case h_6 hs => exact hquiet.forget (by rw [hs]; rfl)
  case h_7 hs => exact hquiet.forget (by rw [hs]; rfl)
  case h_8 => exact hquiet
  all_goals
    next hs => exact hfade (by rw [hs]; rfl)

theorem LinkRecord.lawful.settle (h : r.lawful) (he : r.timerExpired .settle now = true) : (r.settle g).lawful := by
  obtain ⟨hserving, hcause, htimer, hdelay, hrun, hlast, hoff⟩ := h
  obtain ⟨t, ht, hk⟩ := LinkRecord.stateTimer_of_expired he
  have husable : r.state.usable = true := by simpa only [ht, timerFits, hk] using htimer
  refine ⟨hserving, hcause, ?_, hdelay, hrun, hlast, hoff⟩
  show timerFits r.state none = true
  revert husable
  cases r.state <;> decide

theorem LinkRecord.lawful.act (h : r.lawful) (a : Action) : (r.act now a).lawful := by
  have hdrained : (r.change now .drained none none).lawful :=
    h.change (fun h' => Bool.noConfusion h') (by decide) rfl (by decide)
  have hseeking : (r.change now .seeking none none).lawful := h.change_seeking
  cases a <;> simp only [LinkRecord.act]
  · split
    · exact h
    · exact h
    · exact hdrained
  · split
    · exact hseeking
    · exact hseeking
    · exact hseeking
    · exact hseeking
    · exact h

theorem LinkRecord.lawful.start (h : r.lawful) : (r.start g now).lawful := by
  obtain ⟨hserving, hcause, htimer, hdelay, hrun, hlast, -⟩ := h.change_seeking (now := now)
  exact ⟨hserving, hcause, htimer, hdelay, hrun, hlast, fun _ h' => LinkState.noConfusion h'⟩

theorem rejoin_lawful (r : LinkRecord) : (r.rejoin g fibre now).lawful := lawful_of_forgotten rfl rfl rfl rfl rfl rfl

theorem LinkEvent.lawful {x : Reception} {served : Bool} {r' : LinkRecord} (e : LinkEvent g fibre now x served r r')
    (h : r.lawful) :
    r'.lawful := by
  cases e with
  | selfHail => exact h.forget_toSeeking
  | hailed _ a m => exact h.hailed a m
  | word _ _ w =>
    have hword : (r.word g w).lawful := h
    exact hword.evaluate false
  | silent => exact h.silent
  | timer => exact h.evaluate true
  | settle he => exact (h.settle he).evaluate false
  | act a => exact h.act a
  | start => exact h.start
  | rejoin => exact rejoin_lawful r

end

theorem LinkChange.lawful {s t : State} {p : Port} {r' : LinkRecord} (c : LinkChange s t p r') (h : (s.link p).lawful) :
    r'.lawful := by
  cases c with
  | reset => exact powerOn_lawful _
  | clerical hc => exact h.clerical hc
  | event he hc => exact (he.lawful h).clerical hc

/-- Settles O55: a record's laws are kept by each event of the Link Monitor, and a move is one such event on one port at
most. -/
theorem stepKeepsLinkRecordsLawful : Obligations.StepKeepsLinkRecordsLawful := by
  unfold Obligations.StepKeepsLinkRecordsLawful
  have hkept := @step_keeps (fun s => ∀ p, (s.link p).lawful) fun _ _ m h p => (m.link p).lawful (h p)
  exact fun s t hs => @hkept s t hs

end Sys2Proof.Machine

/-! Disabled ports stay as power-on left them (R4, R5, R39); margins stay where the link states say they are (R59, R63,
R65, R69 to R71) and hold durations between HOLD_BASE and HOLD_MAX (R72). -/

namespace Sys2Proof.Machine

/-! ### The station state and the image after a move -/

/-- What a move does to the station state and the image: nothing; power-on; START on an image that passed its tests; or
a write of the image in CONFIG. -/
inductive StationChange (s t : State) : Prop
  | same (hs : t.inService = s.inService) (hg : t.image = s.image)
  | reset (h : execPowerOn s = .next t)
  | start (hs : s.inService = false) (ht : t.inService = true) (hg : t.image = s.image) (hf : s.image.firstFailing = none)
  | configure (hs : s.inService = false) (ht : t.inService = false) (hlm : t.lm = s.lm)

theorem StationChange.of_slc {s t : State} (h : t.slc = s.slc) : StationChange s t :=
  .same (by rw [State.inService, h]; rfl) (by rw [State.image, h]; rfl)

theorem makeCopies_slc {s : State} (b : Buffer) : (s.makeCopies b).1.slc = s.slc :=
  makeCopies_induct (P := fun t => t.slc = s.slc) (fun _ _ h => h)
    (fun _ h => (EgressWork.placeCopies _ _ _ _).slc.trans h) (fun _ h => (DeliveryWork.placeLocal _ _).slc.trans h) rfl

theorem copiesOf_slc (s : State) (i : Nat) : (s.copiesOf i).1.slc = s.slc := by
  simp only [State.copiesOf]
  split
  · exact makeCopies_slc _
  · rfl

theorem beginTraffic_slc (s : State) (p : Port) : (s.beginTraffic p).slc = s.slc := by
  rcases beginTraffic_cases s p with ⟨i, fe, -, e⟩ | ⟨-, e⟩ <;> (rw [e]; rfl)

theorem endTraffic_slc (s : State) (p : Port) (i : Nat) (f : Frame) : (s.endTraffic p i f).slc = s.slc := by
  rcases endTraffic_cases s p i f with e | ⟨hd, payload, ⟨-, e⟩ | ⟨b, -, e⟩⟩
  · rw [e]; rfl
  · rw [e]; rfl
  · rw [e, handOver_eq]
    show State.slc (if _ then _ else _) = _
    split
    · exact makeCopies_slc (s := State.filtered _ p b) b
    · rfl

theorem dropDeliveryHead_slc (s : State) : s.dropDeliveryHead.slc = s.slc := by
  rcases dropDeliveryHead_cases s with ⟨-, e⟩ | ⟨i, l, -, e⟩ <;> rw [e]
  rfl

theorem emptyQueues_frame (s : State) :
    s.emptyQueues = { s with fe := s.emptyQueues.fe, lpc := { s.lpc with queue := [] } } := by
  rw [State.emptyQueues, State.releaseAll_frame]

theorem rejoinBlocks_slc (s : State) : s.rejoinBlocks.slc = s.slc := by
  show s.emptyQueues.slc = s.slc
  rw [emptyQueues_frame]

theorem Move.station {s t : State} (m : Move s t) : StationChange s t := by
  cases m with
  | bookkeeping hb => exact .same hb.inService hb.image
  | powerOn hp => exact .reset hp
  | select p => exact .of_slc (EgressWork.select s p).slc
  | deliver => exact .of_slc (DeliveryWork.tryDeliver s).slc
  | claim => exact .of_slc (beginTraffic_slc s _)
  | receive | endReception | dropTraffic | hailDeparted | trafficDeparted | hailTimer => exact .of_slc rfl
  | endTraffic f => exact .of_slc (endTraffic_slc _ _ _ f)
  | @hail p a f h =>
    exact .of_slc (LineWork.hail ((s.setRx p .idle).count (.port p .hailRx)) p a h).slc
  | @statusWord p word w => exact .of_slc (LineWork.statusWord s p w).slc
  | silent => exact .of_slc (LineWork.silent s _).slc
  | timer => exact .of_slc (LineWork.timerEvent s _).slc
  | settle => exact .of_slc (LineWork.settleEvent s _).slc
  | act a => exact .of_slc (LineWork.act s a).slc
  | @ingress q i fe =>
    have h := copiesOf_slc ({ s with fe := fe, af := s.af.ingress s.lpc.nextSequence s.now }.advanceSequence) i
    exact .of_slc h
  | delivered => exact .of_slc (dropDeliveryHead_slc s)
  | start hs hg => exact .start hs rfl rfl hg
  | rejoin => exact .of_slc (rejoinBlocks_slc s)
  | configure g hs => exact .configure hs hs rfl

/-! ### Dormant ports -/

/-- An event leaves a power-on record as it is, but for START, which enables the port. -/
theorem LinkEvent.of_powerOn {g : Image} {fibre served : Bool} {now : Time} {m : Option Int} {r' : LinkRecord}
    (e : LinkEvent g fibre now .idle served (.powerOn m) r') :
    r' = .powerOn m ∨ (r'.enabled = true ∧ served = true) := by
  cases e with
  | selfHail hx | hailed hx => exact absurd rfl hx
  | word he | silent he | timer he | settle he | rejoin he => exact absurd he Bool.false_ne_true
  | act a => left; cases a <;> rfl
  | start hs => exact .inr ⟨rfl, hs⟩

theorem toSeeking_enabled (r : LinkRecord) (now : Time) : (r.toSeeking now).enabled = r.enabled := by
  rcases r.toSeeking_cases now with ⟨-, e⟩ | ⟨-, -, e⟩ <;> rw [e]
  rfl

theorem identify_enabled (r : LinkRecord) (fibre : Bool) (now : Time) (h : Hail) :
    (r.identify fibre now h).enabled = r.enabled := by
  simp only [LinkRecord.identify]
  split
  · rfl
  · split
    · rfl
    · exact toSeeking_enabled (r.forget fibre) now

theorem hailed_enabled (r : LinkRecord) (g : Image) (fibre : Bool) (now a : Time) (h : Hail) :
    (r.hailed g fibre now a h).enabled = r.enabled := by
  rw [LinkRecord.hailed, (LinkRecord.evaluate_sameHop _ g now false).enabled, LinkRecord.take_frame]
  exact identify_enabled r fibre now h

theorem silent_enabled (r : LinkRecord) (fibre : Bool) (now : Time) : (r.silent fibre now).enabled = r.enabled := by
  simp only [LinkRecord.silent]
  split <;> rfl

theorem act_enabled (r : LinkRecord) (now : Time) (a : Action) : (r.act now a).enabled = r.enabled := by
  cases a <;> (simp only [LinkRecord.act]; split <;> rfl)

/-- No event disables a port. -/
theorem LinkEvent.enabled {g : Image} {fibre served : Bool} {now : Time} {x : Reception} {r r' : LinkRecord}
    (e : LinkEvent g fibre now x served r r') (h : r.enabled = true) : r'.enabled = true := by
  cases e with
  | selfHail => exact (toSeeking_enabled (r.forget fibre) now).trans h
  | hailed _ a m => exact (hailed_enabled r g fibre now a m).trans h
  | word _ _ w => exact ((r.word g w).evaluate_sameHop g now false).enabled.trans h
  | silent => exact (silent_enabled r fibre now).trans h
  | timer => exact (r.evaluate_sameHop g now true).enabled.trans h
  | settle => exact ((r.settle g).evaluate_sameHop g now false).enabled.trans h
  | act a => exact (act_enabled r now a).trans h
  | start => rfl
  | rejoin => exact h

theorem LinkRecord.Clerical.enabled {r r' : LinkRecord} (h : r.Clerical r') : r'.enabled = r.enabled := by
  rw [h.frame]

/-- A dormant port's record stays as it is, unless START enables it; an enabled port stays enabled; but for POWER_ON. -/
theorem LinkChange.of_dormant {s t : State} {p : Port} {r' : LinkRecord} (c : LinkChange s t p r')
    (h : (s.link p).enabled = false → s.link p = powerOnRecord p ∧ s.rx p = .idle) :
    execPowerOn s = .next t ∨ ((s.link p).enabled = false ∧ r' = powerOnRecord p)
    ∨ (r'.enabled = true ∧ (t.inService = true ∨ (s.link p).enabled = true)) := by
  cases hen : (s.link p).enabled with
  | true =>
    cases c with
    | reset hp => exact .inl hp
    | clerical hc => exact .inr (.inr ⟨hc.enabled.trans hen, .inr rfl⟩)
    | event he hc => exact .inr (.inr ⟨hc.enabled.trans (he.enabled hen), .inr rfl⟩)
  | false =>
    obtain ⟨hr, hrx⟩ := h hen
    cases c with
    | reset hp => exact .inl hp
    | clerical hc => exact .inr (.inl ⟨rfl, (hc.still _ hr).trans hr⟩)
    | event he hc =>
      rw [hrx, hr] at he
      rcases LinkEvent.of_powerOn (m := if fibrePort p then some 127 else none) he with e | ⟨hen', hs⟩
      · exact .inr (.inl ⟨rfl, (hc.still _ e).trans e⟩)
      · exact .inr (.inr ⟨hc.enabled.trans hen', .inl hs⟩)

/-- What a move can make of a port's reception: a frame begins only on a port that is followed. -/
theorem Move.rx_of_idle {s t : State} (m : Move s t) {q : Port} (h : s.rx q = .idle) (hf : s.follows q = false) :
    t.rx q = .idle := by
  have hset : ∀ {p : Port} (x : Reception), (p ≠ q ∨ x = .idle) → (s.setRx p x).rx q = .idle := by
    intro p x hx
    by_cases hp : q = p
    · subst hp
      rw [State.setRx_rx_self]
      exact hx.resolve_left fun e => e rfl
    · rw [State.setRx_rx_of_ne _ _ hp, h]
  have hother : ∀ {p : Port}, s.follows p = true → p ≠ q := fun hp e => by
    rw [e, hf] at hp
    exact Bool.false_ne_true hp
  have hidle : ∀ (p : Port), (s.setRx p .idle).rx q = .idle := fun p => hset .idle (.inr rfl)
  have hcopies : ∀ (t : State) (b : Buffer), (t.makeCopies b).1.rx q = t.rx q := fun t b =>
    makeCopies_induct (P := fun u => u.rx q = t.rx q) (fun _ _ h => h)
      (fun _ h => ((EgressWork.placeCopies _ _ _ _).rx q).trans h)
      (fun u h => (congrArg (fun li => (PerPort.get li q).rx) (DeliveryWork.placeLocal u _).li).trans h) rfl
  cases m with
  | bookkeeping hb => exact (congrArg (fun li => (PerPort.get li q).rx) hb.li).trans h
  | powerOn hp => rw [(execPowerOn_next hp).1]; cases q <;> rfl
  | select p => exact ((EgressWork.select s p).rx q).trans h
  | deliver => exact (congrArg (fun li => (PerPort.get li q).rx) (DeliveryWork.tryDeliver s).li).trans h
  | @claim p hp =>
    rcases beginTraffic_cases s p with ⟨i, fe, -, e⟩ | ⟨-, e⟩ <;> rw [e]
    · exact hset (.traffic i) (.inl (hother hp))
    · exact hset .unstored (.inl (hother hp))
  | receive x _ hp => exact hset x (.inl (hother hp))
  | endReception | dropTraffic => exact hidle _
  | hailDeparted | trafficDeparted => exact (State.setTx_rx _ _ _ q).trans h
  | @endTraffic p i f =>
    rcases endTraffic_cases (s.setRx p .idle) p i f with e | ⟨hd, payload, ⟨-, e⟩ | ⟨b, -, e⟩⟩
    · rw [e]; exact hidle p
    · rw [e]; exact hidle p
    · rw [e, handOver_eq]
      show State.rx (if _ then _ else _) q = _
      split
      · exact (hcopies (State.filtered _ p b) b).trans (hidle p)
      · exact hidle p
  | @hail p a f m =>
    exact ((LineWork.hail ((s.setRx p .idle).count (.port p .hailRx)) p a m).rx q).trans (hidle p)
  | @statusWord p word w => exact ((LineWork.statusWord s p w).rx q).trans h
  | hailTimer | start | configure => exact h
  | silent => exact ((LineWork.silent s _).rx q).trans h
  | timer => exact ((LineWork.timerEvent s _).rx q).trans h
  | settle => exact ((LineWork.settleEvent s _).rx q).trans h
  | act a => exact ((LineWork.act s a).rx q).trans h
  | @ingress r i fe =>
    have hkept : ∀ t : State, (t.copiesOf i).1.rx q = t.rx q := by
      intro t
      simp only [State.copiesOf]
      split
      · exact hcopies t _
      · rfl
    exact (hkept ({ s with fe := fe, af := s.af.ingress s.lpc.nextSequence s.now }.advanceSequence)).trans h
  | delivered =>
    rcases dropDeliveryHead_cases s with ⟨-, e⟩ | ⟨i, l, -, e⟩ <;> rw [e] <;> exact h
  | rejoin => rw [State.recompute_rx, rejoinBlocks_rx, h]; rfl

theorem execPowerOn_link {s t : State} (h : execPowerOn s = .next t) (p : Port) : t.link p = powerOnRecord p := by
  rw [(execPowerOn_next h).1]
  exact reset_link p

theorem execPowerOn_rx {s t : State} (h : execPowerOn s = .next t) (p : Port) : t.rx p = .idle := by
  rw [(execPowerOn_next h).1]
  cases p <;> rfl

theorem Move.keeps_service {s t : State} (m : Move s t) (h : s.inService = true) :
    execPowerOn s = .next t ∨ (t.inService = true ∧ t.image = s.image) := by
  rcases m.station with ⟨hs, hg⟩ | hp | ⟨hs, -⟩ | ⟨hs, -⟩
  · exact .inr ⟨hs.trans h, hg⟩
  · exact .inl hp
  · exact absurd (hs.symm.trans h) Bool.false_ne_true
  · exact absurd (hs.symm.trans h) Bool.false_ne_true

theorem dormant_of_powerOn {s t : State} (h : execPowerOn s = .next t) : t.dormant := by
  intro p
  rw [execPowerOn_link h, execPowerOn_rx h]
  exact ⟨fun _ => ⟨rfl, rfl⟩, fun _ => rfl⟩

theorem Move.keeps_dormant {s t : State} (m : Move s t) (h : s.dormant) : t.dormant := by
  intro p
  obtain ⟨hdormant, hconfig⟩ := h p
  rcases (m.link p).of_dormant (fun hen => (hdormant hen).symm) with hp | ⟨hen, e⟩ | ⟨hen, hserved⟩
  · exact dormant_of_powerOn hp p
  · have hrx := m.rx_of_idle (hdormant hen).1 (by rw [State.follows, hen, Bool.and_false])
    exact ⟨fun _ => ⟨hrx, e⟩, fun _ => by rw [e]; rfl⟩
  · refine ⟨fun hen' => absurd (hen.symm.trans hen') nofun, fun ht => ?_⟩
    rcases hserved with hs | hs
    · exact absurd (hs.symm.trans ht) nofun
    · have hservice : s.inService = true := by
        by_contra hn
        exact absurd (hs.symm.trans (hconfig (Bool.eq_false_of_not_eq_true hn))) nofun
      rcases m.keeps_service hservice with hp | ⟨ht', -⟩
      · exact ((dormant_of_powerOn hp) p).2 ht
      · exact absurd (ht'.symm.trans ht) nofun

/-! ### Margins -/

section
variable {r : LinkRecord} {g : Image} {fibre : Bool} {now : Time}

/-- Both margins in range, and those of port 4 fixed at +127 (R59, R63). -/
def LinkRecord.marginsInRange (r : LinkRecord) (fibre : Bool) : Prop :=
  (∀ m ∈ r.near, inMargin m) ∧ (∀ m ∈ r.far, inMargin m) ∧ (fibre = true → r.near = some 127 ∧ r.far = some 127)

/-- A link state that says where the effective margin is (R65). -/
def LinkState.judged : LinkState → Bool
  | .clear | .degraded | .hold | .trial => true
  | _ => false

theorem LinkRecord.atLeast_or_below (h : r.effective.isSome = true) (x : Int) :
    r.atLeast x = true ∧ r.below x = false ∨ r.atLeast x = false ∧ r.below x = true := by
  obtain ⟨e, he⟩ := Option.isSome_iff_exists.1 h
  simp only [LinkRecord.atLeast, LinkRecord.below, he, decide_eq_true_eq, decide_eq_false_iff_not]
  omega

theorem LinkRecord.effective_of_atLeast {x : Int} (h : r.atLeast x = true) : r.effective.isSome = true := by
  simp only [LinkRecord.atLeast] at h
  split at h
  · next he => rw [he]; rfl
  · exact absurd h Bool.false_ne_true

theorem LinkRecord.atLeast_mono {x y : Int} (hxy : y ≤ x) (h : r.atLeast x = true) : r.atLeast y = true := by
  obtain ⟨e, he⟩ := Option.isSome_iff_exists.1 (LinkRecord.effective_of_atLeast h)
  simp only [LinkRecord.atLeast, he, decide_eq_true_eq] at h ⊢
  omega

theorem LinkRecord.below_mono {x y : Int} (hxy : x ≤ y) (h : r.below x = true) : r.below y = true := by
  simp only [LinkRecord.below] at h ⊢
  split at h
  · simp only [decide_eq_true_eq] at h ⊢
    omega
  · exact absurd h Bool.false_ne_true

theorem Image.fade_le_restore (g : Image) : g.fadeLevel ≤ g.restoreLevel := by
  have : (0 : Int) ≤ g.hysteresis.toNat := Int.natCast_nonneg _
  simp only [Image.restoreLevel, Image.hysteresisLevel]
  omega

theorem Image.degrade_le (g : Image) : g.degradeLevel ≤ g.degradeLevel + g.hysteresisLevel := by
  have : (0 : Int) ≤ g.hysteresis.toNat := Int.natCast_nonneg _
  simp only [Image.hysteresisLevel]
  omega

theorem LinkRecord.marginsAgree.inRange (h : r.marginsAgree g fibre) : r.marginsInRange fibre := by
  obtain ⟨hnear, hfar, hfixed, -⟩ := h
  exact ⟨hnear, hfar, hfixed⟩

theorem LinkRecord.marginsAgree.effective (h : r.marginsAgree g fibre) (hs : r.state.judged = true) :
    r.effective.isSome = true := by
  obtain ⟨-, -, -, hclear, hdegraded, hreturn⟩ := h
  cases e : r.state <;> rw [e] at hs
  case clear => exact LinkRecord.effective_of_atLeast (hclear e)
  case degraded => exact LinkRecord.effective_of_atLeast (hdegraded e).1
  case hold => exact LinkRecord.effective_of_atLeast (hreturn (.inl e))
  case trial => exact LinkRecord.effective_of_atLeast (hreturn (.inr e))
  all_goals exact absurd hs Bool.false_ne_true

/-- In a state that says nothing of the effective margin the ranges suffice. -/
theorem marginsAgree_of_unjudged (h : r.marginsInRange fibre) (hs : r.state.judged = false) :
    r.marginsAgree g fibre := by
  obtain ⟨hnear, hfar, hfixed⟩ := h
  refine ⟨hnear, hfar, hfixed, fun e => ?_, fun e => ?_, fun e => ?_⟩
  · rw [e] at hs; exact absurd hs nofun
  · rw [e] at hs; exact absurd hs nofun
  · rcases e with e | e <;> rw [e] at hs <;> exact absurd hs nofun

theorem marginsAgree_of_clear (h : r.marginsInRange fibre) (hs : r.state = .clear)
    (hd : r.atLeast g.degradeLevel = true) : r.marginsAgree g fibre := by
  obtain ⟨hnear, hfar, hfixed⟩ := h
  exact ⟨hnear, hfar, hfixed, fun _ => hd, by simp [hs], by simp [hs]⟩

theorem marginsAgree_of_degraded (h : r.marginsInRange fibre) (hs : r.state = .degraded)
    (hf : r.atLeast g.fadeLevel = true) (hd : r.below (g.degradeLevel + g.hysteresisLevel) = true) :
    r.marginsAgree g fibre := by
  obtain ⟨hnear, hfar, hfixed⟩ := h
  exact ⟨hnear, hfar, hfixed, by simp [hs], fun _ => ⟨hf, hd⟩, by simp [hs]⟩

theorem marginsAgree_of_returning (h : r.marginsInRange fibre) (hs : r.state = .hold ∨ r.state = .trial)
    (hr : r.atLeast g.restoreLevel = true) : r.marginsAgree g fibre := by
  obtain ⟨hnear, hfar, hfixed⟩ := h
  exact ⟨hnear, hfar, hfixed, fun e => by simp [e] at hs, fun e => by simp [e] at hs, fun _ => hr⟩

theorem enterUsable_marginsAgree (h : r.marginsInRange fibre) (hr : r.atLeast g.restoreLevel = true) :
    (r.enterUsable g now).marginsAgree g fibre := by
  have heff := LinkRecord.effective_of_atLeast hr
  simp only [LinkRecord.enterUsable]
  split
  · next hd => exact marginsAgree_of_clear h rfl hd
  · next hd =>
    have hbelow : r.below g.degradeLevel = true := by
      rcases LinkRecord.atLeast_or_below heff g.degradeLevel with ⟨h', -⟩ | ⟨-, h'⟩
      · exact absurd h' hd
      · exact h'
    exact marginsAgree_of_degraded h rfl (LinkRecord.atLeast_mono g.fade_le_restore hr)
      (LinkRecord.below_mono g.degrade_le hbelow)

theorem LinkRecord.atLeast_of_not_below {x : Int} (h : r.effective.isSome = true) (hb : r.below x = false) :
    r.atLeast x = true := by
  rcases LinkRecord.atLeast_or_below h x with ⟨h', -⟩ | ⟨-, h'⟩
  · exact h'
  · exact absurd (hb.symm.trans h') Bool.false_ne_true

/-- One evaluation takes a port whose margins are known, where its state needs them, to where the margins say it is. -/
theorem evaluate_marginsAgree (h : r.marginsInRange fibre) (heff : r.state.judged = true → r.effective.isSome = true)
    (timer : Bool) : (r.evaluate g now timer).marginsAgree g fibre := by
  have hseek : (r.change now .seeking none none).marginsAgree g fibre := marginsAgree_of_unjudged h rfl
  have hfade : (r.change now .faded (some .rain) none).marginsAgree g fibre := marginsAgree_of_unjudged h rfl
  have hfail : (r.fail g now).marginsAgree g fibre := marginsAgree_of_unjudged h rfl
  have hstay : r.state.judged = false → r.marginsAgree g fibre := marginsAgree_of_unjudged h
  simp only [LinkRecord.evaluate]
  cases hs : r.state <;> rw [hs] at heff hstay <;> dsimp only
  case off | drained => exact hstay rfl
  case seeking =>
    split
    · next hc => exact enterUsable_marginsAgree h (by simp only [Bool.and_eq_true] at hc; exact hc.1.2)
    · exact hstay rfl
  case faded =>
    split
    · next hc =>
      exact marginsAgree_of_returning h (.inl rfl) (by simp only [Bool.and_eq_true] at hc; exact hc.1.2)
    · exact hstay rfl
  case clear =>
    split
    · exact hseek
    split
    · exact hfade
    next hf =>
    have hf := LinkRecord.atLeast_of_not_below (heff rfl) (Bool.eq_false_of_not_eq_true hf)
    split
    · next hd => exact marginsAgree_of_degraded h rfl hf (LinkRecord.below_mono g.degrade_le hd)
    · next hd => exact marginsAgree_of_clear h hs (LinkRecord.atLeast_of_not_below (heff rfl) (Bool.eq_false_of_not_eq_true hd))
  case degraded =>
    split
    · exact hseek
    split
    · exact hfade
    next hf =>
    have hf := LinkRecord.atLeast_of_not_below (heff rfl) (Bool.eq_false_of_not_eq_true hf)
    split
    · next hd => exact marginsAgree_of_clear h rfl (LinkRecord.atLeast_mono g.degrade_le hd)
    · next hd =>
      rcases LinkRecord.atLeast_or_below (heff rfl) (g.degradeLevel + g.hysteresisLevel) with ⟨hd', -⟩ | ⟨-, hd'⟩
      · exact absurd hd' hd
      · exact marginsAgree_of_degraded h hs hf hd'
  case hold =>
    split
    · exact hseek
    split
    · exact hfail
    next hr =>
    have hr := LinkRecord.atLeast_of_not_below (heff rfl) (Bool.eq_false_of_not_eq_true hr)
    split
    · exact marginsAgree_of_returning h (.inr rfl) hr
    · exact marginsAgree_of_returning h (.inl hs) hr
  case trial =>
    split
    · exact hseek
    split
    · exact hfail
    next hr =>
    have hr := LinkRecord.atLeast_of_not_below (heff rfl) (Bool.eq_false_of_not_eq_true hr)
    split
    · exact enterUsable_marginsAgree h hr
    · exact marginsAgree_of_returning h (.inr hs) hr

theorem LinkRecord.marginsInRange.quiet (h : r.marginsInRange fibre) :
    LinkRecord.marginsInRange { r with far := if fibre then r.far else none } fibre := by
  obtain ⟨hnear, hfar, hfixed⟩ := h
  cases fibre
  · refine ⟨hnear, fun m hm => ?_, fun h => absurd h Bool.false_ne_true⟩
    cases hm
  · exact ⟨hnear, hfar, hfixed⟩

theorem LinkRecord.marginsInRange.toSeeking (h : r.marginsInRange fibre) :
    (r.toSeeking now).marginsInRange fibre ∧ (r.toSeeking now).state.judged = false := by
  rcases r.toSeeking_cases now with ⟨hs | hs, e⟩ | ⟨-, -, e⟩ <;> rw [e]
  · rw [hs]; exact ⟨h, rfl⟩
  · rw [hs]; exact ⟨h, rfl⟩
  · exact ⟨h, rfl⟩

theorem identify_marginsAgree (h : r.marginsAgree g fibre) (m : Hail) :
    (r.identify fibre now m).marginsAgree g fibre := by
  simp only [LinkRecord.identify]
  split
  · exact h
  · split
    · exact h
    · have hforgot : (r.forget fibre).marginsInRange fibre := h.inRange.quiet
      obtain ⟨hrange, hs⟩ := hforgot.toSeeking (now := now)
      exact marginsAgree_of_unjudged hrange hs

/-- A HAIL's far margin, where the port is not the fibre's, is known from it on. -/
theorem hailed_marginsAgree (h : r.marginsAgree g fibre) (a : Time) (m : Hail) (hm : inMargin m.farMargin) :
    (r.hailed g fibre now a m).marginsAgree g fibre := by
  have hid := identify_marginsAgree (now := now) h m
  rw [LinkRecord.hailed, LinkRecord.take_frame]
  generalize r.identify fibre now m = r1 at hid ⊢
  obtain ⟨hnear, hfar, hfixed⟩ := hid.inRange
  refine evaluate_marginsAgree ?_ (fun hs => ?_) false
  · refine ⟨hnear, fun x hx => ?_, fun hf => ?_⟩
    · cases fibre
      · cases hx; exact hm
      · exact hfar x hx
    · subst hf
      exact hfixed rfl
  · have heff := hid.effective hs
    simp only [LinkRecord.effective] at heff ⊢
    cases hn : r1.near with
    | none => rw [hn] at heff; exact absurd heff Bool.false_ne_true
    | some x =>
      cases fibre
      · rfl
      · rw [(hfixed rfl).2]; rfl

theorem rawMargin_inMargin (g : Image) (w : StatusWord) : inMargin (rawMargin g w) := by
  have hclamp : ∀ x, inMargin (clampMargin x) := fun x => by unfold clampMargin inMargin; omega
  simp only [rawMargin]
  split
  · decide
  · split
    · decide
    · exact hclamp _

theorem word_marginsAgree (h : r.marginsAgree g false) (w : StatusWord) :
    ((r.word g w).evaluate g now false).marginsAgree g false := by
  have hrange := h.inRange
  obtain ⟨hnear, hfar, -⟩ := hrange
  refine evaluate_marginsAgree (r := r.word g w) ⟨fun x hx => ?_, hfar, fun hf => absurd hf Bool.false_ne_true⟩
    (fun hs => ?_) false
  · cases hx
    cases hn : r.near with
    | none => exact rawMargin_inMargin g w
    | some m =>
      rw [smooth_some]
      exact smooth_inMargin _ (hnear m hn) (rawMargin_inMargin g w)
  · have heff := h.effective hs
    simp only [LinkRecord.effective, LinkRecord.word] at heff ⊢
    cases hf : r.far with
    | none => rw [hf] at heff; cases hn : r.near <;> rw [hn] at heff <;> exact absurd heff Bool.false_ne_true
    | some x => rfl

theorem silent_marginsAgree (h : r.marginsAgree g fibre) : (r.silent fibre now).marginsAgree g fibre := by
  have hquiet := h.inRange.quiet
  simp only [LinkRecord.silent]
  split
  case h_6 hs => exact marginsAgree_of_unjudged hquiet.quiet (by show r.state.judged = false; rw [hs]; rfl)
  case h_7 hs => exact marginsAgree_of_unjudged hquiet.quiet (by show r.state.judged = false; rw [hs]; rfl)
  case h_5 hs => exact marginsAgree_of_unjudged hquiet (by show r.state.judged = false; rw [hs]; rfl)
  case h_8 hs => exact marginsAgree_of_unjudged hquiet (by show r.state.judged = false; rw [hs]; rfl)
  all_goals exact marginsAgree_of_unjudged hquiet rfl

theorem act_marginsAgree (h : r.marginsAgree g fibre) (a : Action) : (r.act now a).marginsAgree g fibre := by
  have hdrained : (r.change now .drained none none).marginsAgree g fibre := marginsAgree_of_unjudged h.inRange rfl
  have hseeking : (r.change now .seeking none none).marginsAgree g fibre := marginsAgree_of_unjudged h.inRange rfl
  cases a <;> simp only [LinkRecord.act] <;> split <;> assumption

theorem LinkEvent.marginsAgree {x : Reception} {served : Bool} {r' : LinkRecord} (e : LinkEvent g fibre now x served r r')
    (h : r.marginsAgree g fibre) : r'.marginsAgree g fibre := by
  cases e with
  | selfHail =>
    have hforgot : (r.forget fibre).marginsInRange fibre := h.inRange.quiet
    obtain ⟨hrange, hs⟩ := hforgot.toSeeking (now := now)
    exact marginsAgree_of_unjudged hrange hs
  | hailed _ a m hm => exact hailed_marginsAgree h a m hm
  | word _ hf w =>
    subst hf
    exact word_marginsAgree h w
  | silent => exact silent_marginsAgree h
  | timer => exact evaluate_marginsAgree h.inRange h.effective true
  | settle => exact evaluate_marginsAgree (r := r.settle g) h.inRange h.effective false
  | act a => exact act_marginsAgree h a
  | start => exact marginsAgree_of_unjudged h.inRange rfl
  | rejoin => exact marginsAgree_of_unjudged h.inRange.quiet rfl

theorem LinkRecord.Clerical.marginsAgree {r' : LinkRecord} (hc : r.Clerical r') (h : r.marginsAgree g fibre) :
    r'.marginsAgree g fibre := by
  rw [hc.frame]
  exact h

theorem powerOnRecord_marginsAgree (g : Image) (p : Port) : (powerOnRecord p).marginsAgree g (fibrePort p) := by
  refine marginsAgree_of_unjudged ?_ rfl
  have hfixed : ∀ m : Int, (if fibrePort p = true then some 127 else none) = some m → m = 127 := by
    intro m hm
    split at hm
    · exact (Option.some.inj hm).symm
    · cases hm
  have hrange : ∀ m ∈ (if fibrePort p = true then some (127 : Int) else none), inMargin m := fun m hm => by
    rw [hfixed m hm]; decide
  exact ⟨hrange, hrange, fun hf => by
    have : powerOnRecord p = .powerOn (some 127) := by rw [powerOnRecord, if_pos hf]
    rw [this]; exact ⟨rfl, rfl⟩⟩

end

theorem LinkChange.marginsAgree {s t : State} {p : Port} {r' : LinkRecord} (c : LinkChange s t p r')
    (h : (s.link p).marginsAgree s.image (fibrePort p)) : r'.marginsAgree s.image (fibrePort p) := by
  cases c with
  | reset => exact powerOnRecord_marginsAgree _ _
  | clerical hc => exact hc.marginsAgree h
  | event he hc => exact hc.marginsAgree (he.marginsAgree h)

theorem State.dormant.link_of_disabled {s : State} (h : s.dormant) {p : Port} (he : (s.link p).enabled = false) :
    s.link p = powerOnRecord p := ((h p).1 he).2

/-- A port that a move leaves enabled was so in SERVICE, on the image that was in force before it. -/
theorem Move.image_of_enabled {s t : State} (m : Move s t) (ht : t.dormant) {p : Port}
    (he : (t.link p).enabled = true) :
    t.image = s.image ∧ (s.inService = true ∨ s.image.firstFailing = none) := by
  have hservice : t.inService = true := by
    by_contra hn
    exact absurd (he.symm.trans ((ht p).2 (Bool.eq_false_of_not_eq_true hn))) nofun
  rcases m.station with ⟨hs, hg⟩ | hp | ⟨-, -, hg, hf⟩ | ⟨-, ht', -⟩
  · exact ⟨hg, .inl (hs.symm.trans hservice)⟩
  · rw [execPowerOn_link hp p] at he
    exact absurd he Bool.false_ne_true
  · exact ⟨hg, .inr hf⟩
  · exact absurd (hservice.symm.trans ht') nofun

theorem Move.keeps_margins {s t : State} (m : Move s t)
    (h : s.dormant ∧ ∀ p, (s.link p).marginsAgree s.image (fibrePort p)) :
    t.dormant ∧ ∀ p, (t.link p).marginsAgree t.image (fibrePort p) := by
  obtain ⟨hd, hmargins⟩ := h
  have ht := m.keeps_dormant hd
  refine ⟨ht, fun p => ?_⟩
  cases he : (t.link p).enabled with
  | false =>
    rw [ht.link_of_disabled he]
    exact powerOnRecord_marginsAgree _ p
  | true =>
    rw [(m.image_of_enabled ht he).1]
    exact (m.link p).marginsAgree (hmargins p)

/-! ### Hold durations -/

section
variable {r : LinkRecord} {g : Image} {fibre : Bool} {now : Time}

theorem toSeeking_holdDuration (r : LinkRecord) (now : Time) : (r.toSeeking now).holdDuration = r.holdDuration := by
  rcases r.toSeeking_cases now with ⟨-, e⟩ | ⟨-, -, e⟩ <;> rw [e]
  rfl

theorem identify_holdDuration (r : LinkRecord) (h : Hail) :
    (r.identify fibre now h).holdDuration = r.holdDuration := by
  simp only [LinkRecord.identify]
  split
  · rfl
  · split
    · rfl
    · exact toSeeking_holdDuration (r.forget fibre) now

theorem silent_holdDuration (r : LinkRecord) : (r.silent fibre now).holdDuration = r.holdDuration := by
  simp only [LinkRecord.silent]
  split <;> rfl

theorem act_holdDuration (r : LinkRecord) (a : Action) : (r.act now a).holdDuration = r.holdDuration := by
  cases a <;> (simp only [LinkRecord.act]; split <;> rfl)

/-- An evaluation leaves the hold duration, or doubles it up to HOLD_MAX (R71). -/
theorem evaluate_holdDuration (r : LinkRecord) (timer : Bool) :
    (r.evaluate g now timer).holdDuration = r.holdDuration
    ∨ (r.evaluate g now timer).holdDuration = r.holdDuration.map (fun d => min (2 * d) g.holdMaxMs) := by
  rcases r.evaluate_cases g now timer with e | ⟨-, -, -, -, -, e⟩ | ⟨-, -, e⟩ | ⟨-, -, e⟩ | ⟨-, -, -, e⟩ | ⟨-, -, e⟩ |
    ⟨-, -, -, e⟩ | ⟨-, -, e⟩ | ⟨-, -, -, e⟩ | ⟨-, -, -, e⟩ <;> rw [e]
  case inr.inr.inr.inr.inr.inr.inr.inl => exact .inr rfl
  all_goals exact .inl rfl

theorem LinkRecord.holdWithin.congr {r' : LinkRecord} (h : r.holdWithin g) (he : r'.enabled = r.enabled)
    (hd : r'.holdDuration = r.holdDuration) : r'.holdWithin g := by
  rw [LinkRecord.holdWithin, he, hd]
  exact h

theorem LinkRecord.holdWithin.evaluate (h : r.holdWithin g) (timer : Bool) :
    (r.evaluate g now timer).holdWithin g := by
  have hen := (r.evaluate_sameHop g now timer).enabled
  rcases evaluate_holdDuration (g := g) (now := now) r timer with e | e
  · exact h.congr hen e
  · intro he
    obtain ⟨d, hd, hbase, hmax⟩ := h (hen.symm.trans he)
    refine ⟨min (2 * d) g.holdMaxMs, ?_, by omega, Nat.min_le_right _ _⟩
    rw [e, Option.mem_map]
    exact ⟨d, hd, rfl⟩

theorem holdWithin_of_base (hb : g.holdBaseMs ≤ g.holdMaxMs) (hd : r.holdDuration = some g.holdBaseMs) :
    r.holdWithin g := fun _ => ⟨g.holdBaseMs, hd, Nat.le_refl _, hb⟩

theorem LinkEvent.holdWithin {x : Reception} {served : Bool} {r' : LinkRecord} (e : LinkEvent g fibre now x served r r')
    (hb : g.holdBaseMs ≤ g.holdMaxMs) (h : r.holdWithin g) : r'.holdWithin g := by
  cases e with
  | selfHail =>
    exact h.congr (toSeeking_enabled (r.forget fibre) now) (toSeeking_holdDuration (r.forget fibre) now)
  | hailed _ a m =>
    have hid : (r.identify fibre now m).holdWithin g := h.congr (identify_enabled r fibre now m) (identify_holdDuration r m)
    have htaken : ((r.identify fibre now m).take g fibre now a m).1.holdWithin g :=
      hid.congr (by rw [LinkRecord.take_frame]) (by rw [LinkRecord.take_frame])
    exact htaken.evaluate false
  | word _ _ w =>
    have hword : (r.word g w).holdWithin g := h
    exact hword.evaluate false
  | silent => exact h.congr (silent_enabled r fibre now) (silent_holdDuration r)
  | timer => exact h.evaluate true
  | settle => exact LinkRecord.holdWithin.evaluate (r := r.settle g) (holdWithin_of_base hb rfl) false
  | act a => exact h.congr (act_enabled r now a) (act_holdDuration r a)
  | start => exact holdWithin_of_base hb rfl
  | rejoin => exact holdWithin_of_base hb rfl

end

theorem LinkChange.holdWithin {s t : State} {p : Port} {r' : LinkRecord} (c : LinkChange s t p r')
    (hb : s.image.holdBaseMs ≤ s.image.holdMaxMs) (h : (s.link p).holdWithin s.image) : r'.holdWithin s.image := by
  cases c with
  | reset => exact fun he => absurd he Bool.false_ne_true
  | clerical hc => exact h.congr hc.enabled (by rw [hc.frame])
  | event he hc => exact (he.holdWithin hb h).congr hc.enabled (by rw [hc.frame])

/-- A sound image has HOLD_BASE up to HOLD_MAX (R169, item 25). -/
theorem Image.holdBase_le_of_sound {g : Image} (h : g.firstFailing = none) : g.holdBaseMs ≤ g.holdMaxMs := by
  have hitem := List.find?_eq_none.1 h 25 (by decide)
  simp only [Bool.not_eq_true', Bool.not_eq_false, Image.itemValid, Bool.and_eq_true, decide_eq_true_eq] at hitem
  exact hitem.1

theorem Move.keeps_holds {s t : State} (m : Move s t)
    (h : s.dormant ∧ (s.inService = true → s.image.holdBaseMs ≤ s.image.holdMaxMs)
      ∧ ∀ p, (s.link p).holdWithin s.image) :
    t.dormant ∧ (t.inService = true → t.image.holdBaseMs ≤ t.image.holdMaxMs) ∧ ∀ p, (t.link p).holdWithin t.image := by
  obtain ⟨hd, hbase, hholds⟩ := h
  have ht := m.keeps_dormant hd
  refine ⟨ht, fun hservice => ?_, fun p he => ?_⟩
  · rcases m.station with ⟨hs, hg⟩ | hp | ⟨-, -, hg, hf⟩ | ⟨-, ht', -⟩
    · rw [hg]; exact hbase (hs.symm.trans hservice)
    · rw [(execPowerOn_next hp).1] at hservice
      exact absurd hservice Bool.false_ne_true
    · rw [hg]; exact Image.holdBase_le_of_sound hf
    · exact absurd (hservice.symm.trans ht') nofun
  · obtain ⟨hg, hsound⟩ := m.image_of_enabled ht he
    rw [hg]
    have hb : s.image.holdBaseMs ≤ s.image.holdMaxMs := hsound.elim hbase Image.holdBase_le_of_sound
    exact (m.link p).holdWithin hb (hholds p) he

/-- Settles O56: an event takes a port to the state its margins say, and a hold duration is HOLD_BASE or doubled up to
HOLD_MAX. -/
theorem stepKeepsMarginsAndHoldDurations : Obligations.StepKeepsMarginsAndHoldDurations := by
  unfold Obligations.StepKeepsMarginsAndHoldDurations
  have hmargins := @step_keeps (fun s => s.dormant ∧ ∀ p, (s.link p).marginsAgree s.image (fibrePort p))
    fun _ _ m => m.keeps_margins
  have hholds := @step_keeps (fun s => s.dormant ∧ (s.inService = true → s.image.holdBaseMs ≤ s.image.holdMaxMs)
    ∧ ∀ p, (s.link p).holdWithin s.image) fun _ _ m => m.keeps_holds
  exact ⟨fun s t hs => @hmargins s t hs, fun s t hs => @hholds s t hs⟩

end Sys2Proof.Machine

/-! What CONFIG keeps empty, and the sizes of the queues, tables and counts (R5, R23, R28, R31, R84, R110, R126, R142). -/

namespace Sys2Proof.Machine

/-! ### CONFIG -/

theorem State.setLink_same (s : State) (p : Port) : s.setLink p (s.link p) = s := by
  show { s with lm := s.lm.set p (s.lm.get p) } = s
  rw [PerPort.set_get]

/-- Selection on a port with nothing waiting does nothing (R127). -/
theorem select_of_nothing_waiting {s : State} {p : Port} (hd : (s.link p).hailDue = false) (hq : s.queue p = .empty) :
    s.select p = s := by
  simp only [State.select]
  split
  · rw [hq]
    simp only [selectFrom, hd, hq]
    rfl
  · rfl

theorem tryDeliver_of_empty {s : State} (h : s.lpc.queue = []) : s.tryDeliver = s := by
  simp only [State.tryDeliver, deliverFrom, h]
  exact ite_self s

theorem settleRoutes_of_off {s : State} {p : Port} (h : (s.link p).state = .off) : s.settleRoutes p .off false = s := by
  simp only [State.settleRoutes, h]
  rfl

theorem act_of_off {s : State} {a : Port × Action} (h : (s.link a.1).state = .off) : s.act a = s := by
  have hact : (s.link a.1).act s.now a.2 = s.link a.1 := by
    cases ha : a.2 <;> simp only [LinkRecord.act, h]
  rw [State.act, hact, State.setLink_same, h, settleRoutes_of_off h]

/-- What a move does in CONFIG: it does nothing, keeps records that no law reads, ends a reception that holds nothing,
powers on, starts the blocks on a sound image, or writes the image. -/
inductive ConfigMove (s : State) : State → Prop
  | stay : ConfigMove s s
  | bookkeeping {t : State} (h : Bookkeeping s t) : ConfigMove s t
  | powerOn {t : State} (h : execPowerOn s = .next t) : ConfigMove s t
  | endReception (p : Port) : ConfigMove s (s.setRx p .idle)
  | start (h : s.image.firstFailing = none) : ConfigMove s s.startBlocks
  | configure (g : Image) : ConfigMove s { s with slc := { s.slc with image := g } }

theorem Move.in_config {s t : State} (m : Move s t) (hd : s.dormant) (hq : s.quiet) (hs : s.inService = false) :
    ConfigMove s t := by
  obtain ⟨hports, -, hdeliveries, hdelivering, -⟩ := hq hs
  have hoff : ∀ p, (s.link p).enabled = false := fun p => (hd p).2 hs
  have hrecord : ∀ p, s.link p = powerOnRecord p := fun p => hd.link_of_disabled (hoff p)
  have hrx : ∀ p, s.rx p = .idle := fun p => ((hd p).1 (hoff p)).1
  have hfollows : ∀ p, s.follows p = false := fun p => by rw [State.follows, hs, Bool.false_and]
  have hnever : ∀ {b : Bool} {P : Prop}, b = true → b = false → P := fun h1 h2 => absurd (h1.symm.trans h2) nofun
  cases m with
  | bookkeeping hb => exact .bookkeeping hb
  | powerOn hp => exact .powerOn hp
  | select p =>
    rw [select_of_nothing_waiting (by rw [hrecord p]; rfl) (hports p).2]
    exact .stay
  | deliver => rw [tryDeliver_of_empty hdeliveries]; exact .stay
  | @claim p hf | @receive p _ _ hf | @statusWord p _ _ hf => exact hnever hf (hfollows p)
  | @endReception p => exact .endReception p
  | @endTraffic p _ _ h | @dropTraffic p _ h | @hail p _ _ _ h =>
    rw [hrx p] at h; exact Reception.noConfusion h
  | @hailDeparted p _ h | @trafficDeparted p _ _ h => rw [(hports p).1] at h; exact Transmission.noConfusion h
  | @hailTimer p he | @silent p he | @timer p _ he | @settle p he =>
    rw [hrecord p] at he
    exact absurd he Bool.false_ne_true
  | act a =>
    rw [act_of_off (by rw [hrecord a.1]; rfl)]
    exact .stay
  | ingress h | rejoin h => exact hnever h hs
  | delivered h => rw [hdelivering] at h; exact absurd h Bool.false_ne_true
  | start _ hg => exact .start hg
  | configure g => exact .configure g

theorem quiet_of_powerOn {s t : State} (h : execPowerOn s = .next t) : t.quiet := by
  obtain ⟨ht, hlpc⟩ := execPowerOn_next h
  rw [ht, hlpc]
  exact fun _ => ⟨fun p => by cases p <;> exact ⟨rfl, rfl⟩, rfl, rfl, rfl, rfl, rfl, rfl, rfl⟩

theorem State.quiet.of_bookkeeping {s t : State} (h : s.quiet) (hb : Bookkeeping s t) : t.quiet := by
  intro ht
  obtain ⟨hports, hpool, hdeliveries, hdelivering, hentries, harmed, hring, hslots⟩ := h (hb.inService ▸ ht)
  refine ⟨fun p => ?_, hb.fe ▸ hpool, hb.deliveries.trans hdeliveries, hb.delivering.trans hdelivering,
    hb.rc ▸ hentries, ?_, hb.ring.trans hring, hb.slots.trans hslots⟩
  · rw [State.tx, State.queue, hb.li, hb.fe]
    exact hports p
  · by_contra hn
    have := hb.armed (hb.inService ▸ ht) (Bool.eq_true_of_not_eq_false hn)
    exact absurd (this.symm.trans harmed) nofun

/-- A station in CONFIG was so before a move, or powered on. -/
theorem Move.config_before {s t : State} (m : Move s t) (ht : t.inService = false) :
    execPowerOn s = .next t ∨ s.inService = false := by
  cases hs : s.inService with
  | false => exact .inr rfl
  | true =>
    rcases m.keeps_service hs with hp | ⟨ht', -⟩
    · exact .inl hp
    · exact absurd (ht'.symm.trans ht) nofun

theorem Move.keeps_quiet {s t : State} (m : Move s t) (hd : s.dormant) (hq : s.quiet) : t.quiet := by
  intro ht
  rcases m.config_before ht with hp | hs
  · exact quiet_of_powerOn hp ht
  · obtain ⟨hports, hrest⟩ := hq hs
    rcases m.in_config hd hq hs with _ | hb | hp | p | hf | g
    · exact hq ht
    · exact hq.of_bookkeeping hb ht
    · exact quiet_of_powerOn hp ht
    · exact ⟨fun q => ⟨(State.setRx_tx s p .idle q).trans (hports q).1, (hports q).2⟩, hrest⟩
    · exact absurd ht nofun
    · exact ⟨hports, hrest⟩

end Sys2Proof.Machine

/-! The sizes of the Egress Queues, the Delivery Queue, the Race Ring and the Cost Table (R84, R110, R126, R142). -/

namespace Sys2Proof.Machine

/-! ### Queues and ring -/

/-- Every queue and the ring within its size (R110, R126, R142). -/
def State.queuesWithin (s : State) : Prop :=
  (∀ p, (s.queue p).size ≤ Config.egressLimit) ∧ s.lpc.queue.length ≤ Config.deliveryLimit
  ∧ s.af.ring.length ≤ Config.ringLimit

theorem EgressQueue.size_push (q : EgressQueue) (u : Urgency) (i : Nat) : (q.push u i).size = q.size + 1 := by
  cases u <;>
    simp only [EgressQueue.size, EgressQueue.push, EgressQueue.setClass, EgressQueue.klass, List.length_append,
      List.length_singleton] <;> omega

theorem EgressQueue.size_pop? {q q' : EgressQueue} {i : Nat} (h : q.pop? = some (i, q')) : q.size = q'.size + 1 := by
  obtain ⟨u, l, hu, rfl, -⟩ := EgressQueue.pop?_eq_some h
  cases u <;> simp only [EgressQueue.klass] at hu <;>
    simp only [EgressQueue.size, EgressQueue.setClass, hu, List.length_cons] <;> omega

theorem State.queuesWithin.setQueue {s : State} (h : s.queuesWithin) {p : Port} {q : EgressQueue}
    (hq : q.size ≤ Config.egressLimit) : (s.setQueue p q).queuesWithin := by
  obtain ⟨hqueues, hrest⟩ := h
  refine ⟨fun r => ?_, hrest⟩
  by_cases hr : r = p
  · rw [hr, State.setQueue_queue_self]; exact hq
  · rw [State.setQueue_queue_of_ne _ _ hr]; exact hqueues r

theorem State.queuesWithin.popped {s : State} (h : s.queuesWithin) {p : Port} {i : Nat} {q : EgressQueue}
    (hq : (s.queue p).pop? = some (i, q)) : (s.setQueue p q).queuesWithin := by
  have := EgressQueue.size_pop? hq
  have := h.1 p
  exact h.setQueue (by omega)

theorem State.queuesWithin.joined {s : State} (h : s.queuesWithin) {p : Port} (fe : Forwarding) (i : Nat) (u : Urgency)
    (hroom : (s.queue p).size < Config.egressLimit) (hfe : fe.queues = s.fe.queues) :
    (({ s with fe := fe } : State).setQueue p ((s.queue p).push u i)).queuesWithin := by
  have hstored : State.queuesWithin { s with fe := fe } := by
    refine ⟨fun q => ?_, h.2⟩
    show (fe.queues.get q).size ≤ _
    rw [hfe]
    exact h.1 q
  refine hstored.setQueue ?_
  rw [EgressQueue.size_push]
  omega

theorem select_within (p : Port) {s : State} (h : s.queuesWithin) : (s.select p).queuesWithin :=
  select_induct (P := State.queuesWithin) (fun _ h _ _ => h) (fun _ _ _ h hq _ => h.popped hq)
    (fun _ _ _ _ h hq _ => h.popped hq) (fun _ _ _ _ h _ hq _ _ => h.popped hq) h

theorem placeCopies_within (i : Nat) (u : Urgency) (ports : List Port) {s : State} (h : s.queuesWithin) :
    (placeCopies i u ports s).1.queuesWithin :=
  placeCopies_induct (P := State.queuesWithin)
    (fun _ _ h hroom => h.joined _ i u hroom rfl) (fun _ _ h => h) (fun _ p h => select_within p h) ports s h

theorem State.queuesWithin.setDeliveries {s : State} (h : s.queuesWithin) {l : List Nat}
    (hl : l.length ≤ Config.deliveryLimit) : (s.setDeliveries l).queuesWithin := ⟨h.1, hl, h.2.2⟩

theorem State.queuesWithin.tail {s : State} (h : s.queuesWithin) {i : Nat} {l : List Nat} (hl : s.lpc.queue = i :: l) :
    (s.setDeliveries l).queuesWithin := by
  have := h.2.1
  rw [hl, List.length_cons] at this
  exact h.setDeliveries (by omega)

theorem tryDeliver_within {s : State} (h : s.queuesWithin) : s.tryDeliver.queuesWithin :=
  tryDeliver_induct (P := State.queuesWithin) (fun _ _ _ h hl _ => h.tail hl) (fun _ _ _ _ h hl _ => h.tail hl)
    (fun _ _ _ _ h _ _ _ => h) h

theorem placeLocal_within (i : Nat) {s : State} (h : s.queuesWithin) : (s.placeLocal i).queuesWithin := by
  rcases placeLocal_cases s i with ⟨hroom, e⟩ | ⟨-, e⟩ <;> rw [e]
  · have hlen : (s.lpc.queue ++ [i]).length ≤ Config.deliveryLimit := by
      rw [List.length_append, List.length_singleton]
      exact hroom
    exact tryDeliver_within (s := s.joinedLocal i) ⟨h.1, hlen, h.2.2⟩
  · exact h

theorem makeCopies_within (b : Buffer) {s : State} (h : s.queuesWithin) : (s.makeCopies b).1.queuesWithin :=
  makeCopies_induct (P := State.queuesWithin) (fun _ _ h => h) (fun _ h => placeCopies_within _ _ _ h)
    (fun _ h => placeLocal_within _ h) h

theorem copiesOf_within (i : Nat) {s : State} (h : s.queuesWithin) : (s.copiesOf i).1.queuesWithin := by
  simp only [State.copiesOf]
  split
  · exact makeCopies_within _ h
  · exact h

theorem flushEntry_within (p : Port) (e : Urgency × Nat) {s : State} (h : s.queuesWithin) :
    (State.flushEntry p s e).queuesWithin := by
  rcases flushEntry_cases p s e with e' | ⟨b, -, c, e'⟩ | ⟨b, r, -, -, hroom, e'⟩ <;> rw [e']
  · exact h
  · exact h
  · exact select_within r (h.joined (s.fe.update b.id _) b.id e.1 hroom rfl)

theorem flush_within (p : Port) {s : State} (h : s.queuesWithin) : (s.flush p).queuesWithin :=
  flush_induct (P := State.queuesWithin) (fun _ e h => flushEntry_within p e h) (h.setQueue (Nat.zero_le _))

theorem linkWork_keeps_within (p : Port) : KeptByLinkWork State.queuesWithin p :=
  ⟨fun _ _ _ _ h => h, fun _ h => flush_within p h⟩

theorem length_addToRing (ring : List RingEntry) (e : RingEntry) (h : ring.length ≤ Config.ringLimit) :
    (addToRing ring e).length ≤ Config.ringLimit := by
  have : 1 ≤ Config.ringLimit := by decide
  simp only [addToRing]
  split
  · rw [List.length_append, List.length_singleton]; omega
  · rw [List.length_append, List.length_singleton, List.length_drop]; omega

theorem ring_after (f : ArrivalFilter) (j : Judgement) (p : Port) (a : Time) (o : Nat) (n : Byte) (q : BitVec 16)
    (h : f.ring.length ≤ Config.ringLimit) : (f.after j p a o n q).ring.length ≤ Config.ringLimit := by
  simp only [ArrivalFilter.after]
  split
  · exact length_addToRing _ _ h
  · simp only [ArrivalFilter.measure]
    split <;> exact h
  · exact h

theorem State.queuesWithin.release {s : State} (h : s.queuesWithin) (i : Nat) : (s.release i).queuesWithin := h

theorem handOver_within {s : State} (p : Port) (b : Buffer) (h : s.queuesWithin) : (s.handOver p b).queuesWithin := by
  have hfiltered : (s.filtered p b).queuesWithin := ⟨h.1, h.2.1, ring_after _ _ _ _ _ _ _ h.2.2⟩
  rw [handOver_eq]
  split
  · exact makeCopies_within b hfiltered
  · exact hfiltered

theorem endTraffic_within {s : State} (p : Port) (i : Nat) (f : Frame) (h : s.queuesWithin) :
    (s.endTraffic p i f).queuesWithin := by
  rcases endTraffic_cases s p i f with e | ⟨hd, payload, ⟨-, e⟩ | ⟨b, -, e⟩⟩
  · rw [e]; exact h
  · rw [e]; exact h
  · rw [e]
    refine (handOver_within p b ?_).release i
    exact h

theorem beginTraffic_queuesWithin {s : State} (p : Port) (h : s.queuesWithin) : (s.beginTraffic p).queuesWithin := by
  rcases beginTraffic_cases s p with ⟨i, fe, hg, e⟩ | ⟨-, e⟩ <;> rw [e]
  · have hqueues : fe.queues = s.fe.queues := by
      simp only [Forwarding.grant] at hg
      split at hg
      · cases hg; rfl
      · cases hg
    refine ⟨fun q => ?_, h.2⟩
    show (fe.queues.get q).size ≤ _
    rw [hqueues]
    exact h.1 q
  · exact h

theorem grant_queues {f f' : Forwarding} {stamp : Stamp} {arrival : Origin} {h : RouteHeader} {payload : List Byte}
    {i : Nat} (hg : f.grant stamp arrival h payload = some (i, f')) : f'.queues = f.queues := by
  simp only [Forwarding.grant] at hg
  split at hg
  · cases hg; rfl
  · cases hg

theorem Move.keeps_queuesWithin {s t : State} (m : Move s t) (h : s.queuesWithin) : t.queuesWithin := by
  cases m with
  | bookkeeping hb =>
    obtain ⟨hqueues, hdeliveries, hring⟩ := h
    refine ⟨fun p => ?_, hb.deliveries ▸ hdeliveries, hb.ring ▸ hring⟩
    rw [State.queue, hb.fe]
    exact hqueues p
  | powerOn hp =>
    obtain ⟨ht, hlpc⟩ := execPowerOn_next hp
    rw [ht, hlpc]
    exact ⟨fun p => by cases p <;> exact Nat.zero_le _, Nat.zero_le _, Nat.zero_le _⟩
  | select p => exact select_within p h
  | deliver => exact tryDeliver_within h
  | claim => exact beginTraffic_queuesWithin _ h
  | receive | endReception | dropTraffic | hailDeparted | trafficDeparted | hailTimer | start | configure => exact h
  | endTraffic f => exact endTraffic_within _ _ f h
  | @hail p a f m => exact (linkWork_keeps_within p).hail a m (s := (s.setRx p .idle).count (.port p .hailRx)) h
  | statusWord => exact (linkWork_keeps_within _).statusWord _ h
  | silent => exact (linkWork_keeps_within _).silent h
  | timer => exact (linkWork_keeps_within _).timerEvent h
  | settle => exact (linkWork_keeps_within _).settleEvent h
  | act a => exact (linkWork_keeps_within a.1).act a.2 h
  | @ingress q i fe hs hg =>
    have hgranted : State.queuesWithin
        ({ s with fe := fe, af := s.af.ingress s.lpc.nextSequence s.now }.advanceSequence) := by
      refine ⟨fun p => ?_, h.2.1, length_addToRing _ _ h.2.2⟩
      show (fe.queues.get p).size ≤ _
      rw [grant_queues hg]
      exact h.1 p
    have hcopied := copiesOf_within i hgranted
    exact hcopied
  | delivered =>
    rcases dropDeliveryHead_cases s with ⟨-, e⟩ | ⟨i, l, hl, e⟩ <;> rw [e]
    · exact h
    · exact h.tail hl
  | rejoin =>
    have hdeliveries : s.rejoinBlocks.lpc.queue = [] := LocalPort.cutDelivery_queue _
    refine ⟨fun p => ?_, ?_, Nat.zero_le _⟩
    · rw [State.recompute_queue, rejoinBlocks_queue]; exact Nat.zero_le _
    · rw [State.recompute_lpc, hdeliveries]; exact Nat.zero_le _

/-! ### The Cost Table -/

/-- The Cost Table in rising order of destination, with at most 16 entries (R84). -/
def RouteComputer.inOrder (t : RouteComputer) : Prop :=
  t.entries.length ≤ Config.costEntries ∧ t.entries.Pairwise (fun a b => a.destination < b.destination)

section
variable {t : RouteComputer} {g : Image} {lm : PerPort LinkRecord} {p : Port}

/-- Entries changed but for their destinations stay in order. -/
theorem RouteComputer.inOrder.map (h : t.inOrder) {f : CostEntry → CostEntry}
    (hf : ∀ e, (f e).destination = e.destination) (full : Bool) :
    RouteComputer.inOrder { entries := t.entries.map f, full := full } := by
  obtain ⟨hlen, hrising⟩ := h
  refine ⟨(List.length_map f).trans_le hlen, List.pairwise_map.2 ?_⟩
  simpa only [hf] using hrising

theorem RouteComputer.inOrder.recompute (h : t.inOrder) : (t.recompute g lm).inOrder :=
  h.map (fun e => e.recompute_destination g lm) t.full

theorem RouteComputer.inOrder.hear (h : t.inOrder) (v : List (Nat × Nat)) : (t.hear p v).inOrder :=
  h.map (f := fun e => { e with heard := e.heard.set p (vectorCost v e.destination) }) (fun _ => rfl) t.full

theorem RouteComputer.inOrder.enter (h : t.inOrder) (d : Nat) : (t.enter g d).inOrder := by
  obtain ⟨hlen, hrising⟩ := h
  rcases t.enter_cases g d with e | ⟨hnone, -, hroom, e⟩ <;> rw [RouteComputer.inOrder, e]
  · exact ⟨hlen, hrising⟩
  · rw [length_insertEntry]
    refine ⟨hroom, insertEntry_rising _ _ hrising fun x hx => ?_⟩
    simpa [CostEntry.new] using List.find?_eq_none.1 hnone x hx

theorem RouteComputer.inOrder.take (h : t.inOrder) (v : List (Nat × Nat)) : (t.take g p v).inOrder := by
  refine RouteComputer.inOrder.hear ?_ v
  generalize v = l
  induction l generalizing t with
  | nil => exact h
  | cons x l ih => exact ih (h.enter x.1)

theorem RouteComputer.inOrder.rejoin (h : t.inOrder) : (t.rejoin g).inOrder := by
  obtain ⟨hlen, hrising⟩ := h
  have hkept : RouteComputer.inOrder { entries := t.entries.filter (fun e => e.isOwn g), full := false } :=
    ⟨(List.length_filter_le _ _).trans hlen, hrising.filter _⟩
  exact hkept.map (f := fun e => .self e.destination) (fun _ => rfl) false

theorem RouteComputer.inOrder.start (h : t.entries = []) : (t.start g).inOrder := by
  simp only [RouteComputer.start, h]
  split
  · exact ⟨Nat.one_le_ofNat, List.pairwise_singleton _ _⟩
  · rw [RouteComputer.inOrder, h]
    exact ⟨by decide, .nil⟩

end

section
variable {s : State} {p : Port}

theorem settleRoutes_rc (s : State) (p : Port) (old : LinkState) (always : Bool) :
    (s.settleRoutes p old always).rc = if always || old.reroutes (s.link p).state then s.recompute.rc else s.rc := by
  simp only [State.settleRoutes]
  have hrc : (if always || old.reroutes (s.link p).state then s.recompute else s).rc
      = if always || old.reroutes (s.link p).state then s.recompute.rc else s.rc := by split <;> rfl
  rw [← hrc]
  generalize (if always || old.reroutes (s.link p).state then s.recompute else s) = s1
  by_cases h : old.leaves (s1.link p).state = true
  · rw [if_pos h]; exact (EgressWork.flush _ p).rc
  · rw [if_neg h]

theorem transition_rc (s : State) (p : Port) (f : LinkRecord → LinkRecord) : (s.transition p f).rc = s.rc := by
  rw [State.transition_frame]; rfl

theorem settleRoutes_inOrder (h : s.rc.inOrder) (old : LinkState) (always : Bool) :
    (s.settleRoutes p old always).rc.inOrder := by
  rw [settleRoutes_rc]
  split
  · exact h.recompute
  · exact h

theorem neighbourHail_rc (s : State) (p : Port) (a : Time) (m : Hail) :
    (s.neighbourHail p a m).rc = (((((s.transition p (fun r => r.identify (fibrePort p) s.now m)).takeFromNeighbour p a
      m).evaluate p false).takeCosts p m)).rc := by
  simp only [State.neighbourHail]
  split
  · exact (EgressWork.flush _ p).rc
  · rfl

theorem takeFromNeighbour_rc (s : State) (p : Port) (a : Time) (m : Hail) :
    (s.takeFromNeighbour p a m).rc = s.rc := by
  simp only [State.takeFromNeighbour, State.countIf]
  split <;> rfl

theorem hail_inOrder (h : s.rc.inOrder) (a : Time) (m : Hail) : (s.hail p a m).rc.inOrder := by
  simp only [State.hail]
  split
  · refine settleRoutes_inOrder ?_ _ _
    rw [State.forgetCosts_rc, transition_rc]
    exact h.hear []
  · rw [neighbourHail_rc]
    refine RouteComputer.inOrder.recompute (RouteComputer.inOrder.take ?_ _)
    rw [State.evaluate, transition_rc, takeFromNeighbour_rc, transition_rc]
    exact h

theorem evaluate_rc (s : State) (p : Port) (timer : Bool) : (s.evaluate p timer).rc = s.rc := transition_rc s p _

theorem statusWord_inOrder (h : s.rc.inOrder) (w : StatusWord) : (s.statusWord p w).rc.inOrder := by
  refine settleRoutes_inOrder ?_ _ _
  rw [evaluate_rc]
  exact h

theorem timerEvent_inOrder (h : s.rc.inOrder) : (s.timerEvent p).rc.inOrder := by
  refine settleRoutes_inOrder ?_ _ _
  rw [evaluate_rc]
  exact h

theorem settleEvent_inOrder (h : s.rc.inOrder) : (s.settleEvent p).rc.inOrder := by
  refine settleRoutes_inOrder ?_ _ _
  rw [evaluate_rc]
  exact h

theorem act_inOrder (h : s.rc.inOrder) (a : Port × Action) : (s.act a).rc.inOrder :=
  settleRoutes_inOrder (s := s.setLink a.1 ((s.link a.1).act s.now a.2)) h _ _

theorem silent_inOrder (h : s.rc.inOrder) : (s.silent p).rc.inOrder := by
  have hfaded := (transition_rc s p (fun r => r.silent (fibrePort p) s.now)).symm ▸ h
  simp only [State.silent]
  refine settleRoutes_inOrder ?_ _ _
  split
  · exact hfaded.hear []
  · exact hfaded

end

theorem makeCopies_rc {s : State} (b : Buffer) : (s.makeCopies b).1.rc = s.rc :=
  makeCopies_induct (P := fun t => t.rc = s.rc) (fun _ _ h => h)
    (fun _ h => (EgressWork.placeCopies _ _ _ _).rc.trans h) (fun _ h => (DeliveryWork.placeLocal _ _).rc.trans h) rfl

theorem copiesOf_rc (s : State) (i : Nat) : (s.copiesOf i).1.rc = s.rc := by
  simp only [State.copiesOf]
  split
  · exact makeCopies_rc _
  · rfl

theorem beginTraffic_rc (s : State) (p : Port) : (s.beginTraffic p).rc = s.rc := by
  rcases beginTraffic_cases s p with ⟨i, fe, -, e⟩ | ⟨-, e⟩ <;> (rw [e]; rfl)

theorem endTraffic_rc (s : State) (p : Port) (i : Nat) (f : Frame) : (s.endTraffic p i f).rc = s.rc := by
  rcases endTraffic_cases s p i f with e | ⟨hd, payload, ⟨-, e⟩ | ⟨b, -, e⟩⟩
  · rw [e]; rfl
  · rw [e]; rfl
  · rw [e, handOver_eq]
    show State.rc (if _ then _ else _) = _
    split
    · exact makeCopies_rc (s := State.filtered _ p b) b
    · rfl

theorem dropDeliveryHead_rc (s : State) : s.dropDeliveryHead.rc = s.rc := by
  rcases dropDeliveryHead_cases s with ⟨-, e⟩ | ⟨i, l, -, e⟩ <;> rw [e]
  rfl

theorem rejoinBlocks_rc (s : State) : s.rejoinBlocks.rc = s.rc.rejoin s.image := by
  show s.emptyQueues.rc.rejoin s.image = _
  rw [emptyQueues_frame]

/-- The table stays in order, START finding it empty (R85). -/
theorem Move.keeps_inOrder {s t : State} (m : Move s t) (hq : s.quiet) (h : s.rc.inOrder) : t.rc.inOrder := by
  cases m with
  | bookkeeping hb => exact hb.rc ▸ h
  | powerOn hp =>
    rw [(execPowerOn_next hp).1]
    exact ⟨Nat.zero_le _, .nil⟩
  | select p => exact (EgressWork.select s p).rc.symm ▸ h
  | deliver => exact (DeliveryWork.tryDeliver s).rc.symm ▸ h
  | claim => exact (beginTraffic_rc s _).symm ▸ h
  | receive | endReception | dropTraffic | hailDeparted | trafficDeparted | hailTimer | configure => exact h
  | endTraffic f => exact (endTraffic_rc _ _ _ f).symm ▸ h
  | @hail p a f m => exact hail_inOrder (s := (s.setRx p .idle).count (.port p .hailRx)) h a m
  | @statusWord p word w => exact statusWord_inOrder h w
  | silent => exact silent_inOrder h
  | timer => exact timerEvent_inOrder h
  | settle => exact settleEvent_inOrder h
  | act a => exact act_inOrder h a
  | @ingress q i fe =>
    have hrc := copiesOf_rc ({ s with fe := fe, af := s.af.ingress s.lpc.nextSequence s.now }.advanceSequence) i
    exact hrc.symm ▸ h
  | delivered => exact (dropDeliveryHead_rc s).symm ▸ h
  | start hs =>
    obtain ⟨-, -, -, -, hentries, -⟩ := hq hs
    exact RouteComputer.inOrder.start hentries
  | rejoin =>
    refine RouteComputer.inOrder.recompute ?_
    rw [rejoinBlocks_rc]
    exact h.rejoin

/-! ### The Time Unit -/

theorem makeCopies_tu {s : State} (b : Buffer) : (s.makeCopies b).1.tu = s.tu :=
  makeCopies_induct (P := fun t => t.tu = s.tu) (fun _ _ h => h)
    (fun _ h => (EgressWork.placeCopies _ _ _ _).tu.trans h) (fun _ h => (DeliveryWork.placeLocal _ _).tu.trans h) rfl

theorem copiesOf_tu (s : State) (i : Nat) : (s.copiesOf i).1.tu = s.tu := by
  simp only [State.copiesOf]
  split
  · exact makeCopies_tu _
  · rfl

theorem endTraffic_tu (s : State) (p : Port) (i : Nat) (f : Frame) : (s.endTraffic p i f).tu = s.tu := by
  rcases endTraffic_cases s p i f with e | ⟨hd, payload, ⟨-, e⟩ | ⟨b, -, e⟩⟩
  · rw [e]; rfl
  · rw [e]; rfl
  · rw [e, handOver_eq]
    show State.tu (if _ then _ else _) = _
    split
    · exact makeCopies_tu (s := State.filtered _ p b) b
    · rfl

theorem beginTraffic_tu (s : State) (p : Port) : (s.beginTraffic p).tu = s.tu := by
  rcases beginTraffic_cases s p with ⟨i, fe, -, e⟩ | ⟨-, e⟩ <;> (rw [e]; rfl)

theorem powerOn_inLimits : TimeUnit.powerOn.inLimits := by
  unfold TimeUnit.inLimits
  decide

theorem Move.keeps_inLimits {s t : State} (m : Move s t) (h : s.tu.inLimits) : t.tu.inLimits := by
  cases m with
  | bookkeeping hb => exact hb.limits h
  | powerOn hp =>
    rw [(execPowerOn_next hp).1]
    exact powerOn_inLimits
  | select p => exact (EgressWork.select s p).tu.symm ▸ h
  | deliver => exact (DeliveryWork.tryDeliver s).tu.symm ▸ h
  | claim => exact (beginTraffic_tu s _).symm ▸ h
  | receive | endReception | dropTraffic | hailDeparted | trafficDeparted | hailTimer | configure | start => exact h
  | endTraffic f => exact (endTraffic_tu _ _ _ f).symm ▸ h
  | @hail p a f m => exact (LineWork.hail ((s.setRx p .idle).count (.port p .hailRx)) p a m).tu.symm ▸ h
  | @statusWord p word w => exact (LineWork.statusWord s p w).tu.symm ▸ h
  | silent => exact (LineWork.silent s _).tu.symm ▸ h
  | timer => exact (LineWork.timerEvent s _).tu.symm ▸ h
  | settle => exact (LineWork.settleEvent s _).tu.symm ▸ h
  | act a => exact (LineWork.act s a).tu.symm ▸ h
  | @ingress q i fe =>
    have htu := copiesOf_tu ({ s with fe := fe, af := s.af.ingress s.lpc.nextSequence s.now }.advanceSequence) i
    exact htu.symm ▸ h
  | delivered =>
    rcases dropDeliveryHead_cases s with ⟨-, e⟩ | ⟨i, l, -, e⟩ <;> rw [e] <;> exact h
  | rejoin =>
    have htu : s.rejoinBlocks.recompute.tu = { s.emptyQueues.tu.disarm with runMark := false } := rfl
    rw [htu, emptyQueues_frame]
    exact h

theorem State.withinLimits_iff (s : State) : s.withinLimits ↔ s.queuesWithin ∧ s.rc.inOrder ∧ s.tu.inLimits := by
  simp only [State.withinLimits, State.queuesWithin, RouteComputer.inOrder, TimeUnit.inLimits]
  tauto

theorem Move.keeps_sizes {s t : State} (m : Move s t) (h : s.dormant ∧ s.quiet ∧ s.withinLimits) :
    t.dormant ∧ t.quiet ∧ t.withinLimits := by
  obtain ⟨hd, hq, hw⟩ := h
  obtain ⟨hqueues, horder, htime⟩ := s.withinLimits_iff.1 hw
  exact ⟨m.keeps_dormant hd, m.keeps_quiet hd hq,
    t.withinLimits_iff.2 ⟨m.keeps_queuesWithin hqueues, m.keeps_inOrder hq horder, m.keeps_inLimits htime⟩⟩

/-- Settles O54: dormancy and quiet by what a move is in CONFIG, the sizes queue by queue and table by table. -/
theorem stepKeepsDisabledPortsConfigAndSizes : Obligations.StepKeepsDisabledPortsConfigAndSizes := by
  unfold Obligations.StepKeepsDisabledPortsConfigAndSizes
  have hkept := @step_keeps (fun s => s.dormant ∧ s.quiet ∧ s.withinLimits) fun _ _ m => m.keeps_sizes
  exact fun s t hs => @hkept s t hs

end Sys2Proof.Machine

/-! The Cost Table is settled on the links as they stand (R90, R91), so a port that a copy is placed on or re-aimed to is
usable, and the queue of a port that is not usable stays empty (R129). -/

namespace Sys2Proof.Machine

open Config (unreachable)

/-! ### What a recompute reads -/

theorem portTerm_congr {g : Image} {p : Port} {r r' : LinkRecord} (hs : r'.state = r.state) (hd : r'.delay = r.delay)
    (hp : r'.profile = r.profile) : portTerm g p r' = portTerm g p r := by
  rw [portTerm, portTerm, lineRate_eq, lineRate_eq, hs, hd, hp]

/-- A recompute reads of the link records their terms alone (R89). -/
theorem CostEntry.recompute_congr {g : Image} {lm lm' : PerPort LinkRecord}
    (h : ∀ p, portTerm g p (lm'.get p) = portTerm g p (lm.get p)) (e : CostEntry) :
    e.recompute g lm' = e.recompute g lm := by
  have hvia : e.via g lm' = e.via g lm := PerPort.ext_get fun p => by rw [e.via_get, e.via_get, h p]
  rw [CostEntry.recompute, CostEntry.recompute, hvia]

theorem RouteComputer.recompute_congr {g : Image} {lm lm' : PerPort LinkRecord}
    (h : ∀ p, portTerm g p (lm'.get p) = portTerm g p (lm.get p)) (t : RouteComputer) :
    t.recompute g lm' = t.recompute g lm := by
  simp only [RouteComputer.recompute, CostEntry.recompute_congr h]

theorem costsSettled_of_terms {s t : State} (h : s.costsSettled) (hrc : t.rc = s.rc) (hg : t.image = s.image)
    (hterm : ∀ p, portTerm s.image p (t.link p) = portTerm s.image p (s.link p)) : t.costsSettled := by
  rw [State.costsSettled, hrc, hg, RouteComputer.recompute_congr hterm]
  exact h

theorem LinkRecord.hailedFrom.portTerm {r r' : LinkRecord} (h : r'.hailedFrom r) (g : Image) (p : Port) :
    portTerm g p r' = portTerm g p r := by
  rw [h.1]
  exact portTerm_congr rfl rfl rfl

theorem EgressWork.costsSettled {s t : State} (w : EgressWork s t) (h : s.costsSettled) : t.costsSettled :=
  costsSettled_of_terms h w.rc (congrArg ServiceLine.image w.slc) fun p => (w.link p).portTerm _ p

theorem DeliveryWork.costsSettled {s t : State} (w : DeliveryWork s t) (h : s.costsSettled) : t.costsSettled := by
  rw [State.costsSettled, w.rc, w.lm, State.image, w.slc]
  exact h

/-- A port that a settled table names as best or second offers a route, so it is usable (R89, R90). -/
theorem usable_of_chosen {s : State} (h : s.costsSettled) {e : CostEntry} (he : e ∈ s.rc.entries) {p : Port}
    (hp : e.best = some p ∨ e.second = some p) : (s.link p).state.usable = true := by
  have hentries : s.rc.entries.map (fun e => e.recompute s.image s.lm) = s.rc.entries :=
    congrArg RouteComputer.entries h
  obtain ⟨e0, -, rfl⟩ := List.mem_map.1 (hentries.symm ▸ he)
  have hvia : ∀ q, (e0.via s.image s.lm).get q < unreachable → (s.link q).state.usable = true := fun q hq => by
    rw [e0.via_get] at hq
    exact portTerm_usable (viaCost_lt hq).1
  by_cases hown : e0.isOwn s.image = true
  · rw [CostEntry.recompute_of_own _ hown] at hp
    rcases hp with hp | hp <;> cases hp
  · rw [CostEntry.recompute_of_not_own _ hown] at hp
    rcases hp with hp | hp
    · exact hvia p (CostEntry.best_cheapest hp).1
    · cases hb : (e0.choose (e0.via s.image s.lm)).best with
      | none => rw [CostEntry.choose_second_of_no_best hb] at hp; cases hp
      | some q => exact hvia p (CostEntry.second_cheapest hb hp).2.1

theorem RouteComputer.mem_of_entry? {t : RouteComputer} {d : Nat} {e : CostEntry} (h : t.entry? d = some e) :
    e ∈ t.entries := List.mem_of_find?_eq_some h

theorem usable_of_reaimPort {s : State} (h : s.costsSettled) {b : Buffer} {r : Port} (hr : s.reaimPort b = some r) :
    (s.link r).state.usable = true := by
  simp only [State.reaimPort] at hr
  split at hr
  · cases hr
  · next e he =>
    obtain ⟨c, hc, hr⟩ := List.exists_of_findSome?_eq_some hr
    split at hr
    · cases hr
    · split at hr
      · cases hr
      · cases hr
        refine usable_of_chosen h (RouteComputer.mem_of_entry? he) ?_
        simpa [eq_comm] using hc

/-- Every port of a copy set is usable (R120, R122, R123). -/
theorem usable_of_copyPorts {s : State} (h : s.costsSettled) {b : Buffer} {p : Port} (hp : p ∈ s.copyPorts b) :
    (s.link p).state.usable = true := by
  simp only [State.copyPorts] at hp
  split at hp
  · simp only [State.floodPorts, State.floodCandidate, List.mem_filter, Bool.and_eq_true] at hp
    exact hp.2.1.1.1
  · split at hp
    · next c pair hc =>
      have hmem : p = c ∨ pair = some p := by
        simp only [ascendingPair] at hp
        cases pair with
        | none => exact .inl (by simpa using hp)
        | some q =>
          dsimp only at hp
          split at hp <;> simp at hp <;> tauto
      simp only [State.aimedChoice] at hc
      split at hc
      · split at hc <;> cases hc
      · split at hc
        · cases hc
        · next e he =>
          have hchosen := fun {q : Port} => usable_of_chosen h (RouteComputer.mem_of_entry? he) (p := q)
          have hpair : ∀ a c', s.pairPort e a c' b.header.urgency = some p → e.second = some p := by
            intro a c' hpp
            simp only [State.pairPort] at hpp
            split at hpp
            · cases hpp
            · next hs =>
              split at hpp
              · cases hpp; exact hs
              · cases hpp
          split at hc
          · cases hc
          · next hb =>
            split at hc
            · split at hc
              · cases hc
              · next hs =>
                cases hc
                rcases hmem with rfl | hmem
                · exact hchosen (.inr hs)
                · exact hchosen (.inr (hpair _ _ hmem))
            · cases hc
              rcases hmem with rfl | hmem
              · exact hchosen (.inl hb)
              · exact hchosen (.inr (hpair _ _ hmem))
    · cases hp
    · cases hp

/-! ### Queues of ports that are not usable -/

/-- The Cost Table settled, and nothing queued on a port that is not usable. -/
def State.routed (s : State) : Prop := s.costsSettled ∧ s.idleQueuesEmpty

theorem State.routed.setQueue {s : State} (h : s.routed) {p : Port} (hp : (s.link p).state.usable = true)
    (q : EgressQueue) : (s.setQueue p q).routed := by
  refine ⟨h.1, fun r hr => ?_⟩
  have hne : r ≠ p := fun e => by
    rw [e] at hr
    exact absurd (hp.symm.trans hr) nofun
  rw [State.setQueue_queue_of_ne _ _ hne]
  exact h.2 r hr

/-- A port with an entry to take is usable. -/
theorem State.routed.usable_of_pop? {s : State} (h : s.routed) {p : Port} {x : Nat × EgressQueue}
    (hx : (s.queue p).pop? = some x) : (s.link p).state.usable = true := by
  by_contra hn
  rw [h.2 p (Bool.eq_false_of_not_eq_true hn)] at hx
  cases hx

theorem State.routed.of_work {s t : State} (h : s.routed) (hcosts : t.costsSettled)
    (hstate : ∀ p, (t.link p).state = (s.link p).state) (hqueue : ∀ p, t.queue p = s.queue p) : t.routed := by
  refine ⟨hcosts, fun p hp => ?_⟩
  rw [hqueue p]
  exact h.2 p (hstate p ▸ hp)

theorem select_routed (p : Port) {s : State} (h : s.routed) : (s.select p).routed :=
  select_induct (P := State.routed)
    (fun s h _ hd => by
      have w := EgressWork.departHail s p hd
      exact h.of_work (w.costsSettled h.1) (fun q => LinkRecord.hailedFrom_state (w.link q)) fun _ => rfl)
    (fun _ _ q h hq _ => h.setQueue (h.usable_of_pop? hq) q)
    (fun s i q _ h hq _ => by
      have hpopped := h.setQueue (h.usable_of_pop? hq) q
      exact hpopped)
    (fun s i q b h _ hq _ _ => by
      have hpopped := h.setQueue (h.usable_of_pop? hq) q
      exact hpopped) h

/-- Placing copies on usable ports keeps the queues of the others empty. -/
theorem placeCopies_routed (i : Nat) (u : Urgency) (ports : List Port) :
    ∀ {s : State}, s.routed → (∀ p ∈ ports, (s.link p).state.usable = true) → (placeCopies i u ports s).1.routed := by
  induction ports with
  | nil => exact fun h _ => h
  | cons p ports ih =>
    intro s h hports
    obtain ⟨hp, hrest⟩ := List.forall_mem_cons.1 hports
    have hplaced : (s.place i u p).1.routed ∧ ∀ q, ((s.place i u p).1.link q).state = (s.link q).state := by
      simp only [State.place]
      split
      · have hjoined : (s.joined i u p).routed := State.routed.setQueue (s := { s with fe := s.fe.update i _ }) h hp _
        exact ⟨select_routed p hjoined, fun q => LinkRecord.hailedFrom_state ((EgressWork.select (s.joined i u p) p).link q)⟩
      · exact ⟨h, fun _ => rfl⟩
    obtain ⟨hrouted, hstate⟩ := hplaced
    exact ih hrouted fun q hq => by rw [hstate]; exact hrest q hq

theorem makeCopies_routed (b : Buffer) {s : State} (h : s.routed) : (s.makeCopies b).1.routed := by
  have hkept : (s.makeCopies b).1.routed ∧ ∀ q, ((s.makeCopies b).1.link q).state = (s.link q).state := by
    refine makeCopies_induct (P := fun t => t.routed ∧ ∀ q, (t.link q).state = (s.link q).state)
      (fun _ _ h => h) (fun t ht => ?_) (fun t ht => ?_) ⟨h, fun _ => rfl⟩
    · obtain ⟨hrouted, hstate⟩ := ht
      refine ⟨placeCopies_routed _ _ _ hrouted fun p hp => ?_, fun q => ?_⟩
      · rw [hstate p]; exact usable_of_copyPorts h.1 hp
      · rw [← hstate q]; exact LinkRecord.hailedFrom_state ((EgressWork.placeCopies _ _ _ _).link q)
    · obtain ⟨hrouted, hstate⟩ := ht
      have w := DeliveryWork.placeLocal t b.id
      have hlink : ∀ q, (t.placeLocal b.id).link q = t.link q := fun q => congrArg (fun lm => lm.get q) w.lm
      exact ⟨hrouted.of_work (w.costsSettled hrouted.1) (fun q => by rw [hlink]) w.queue, fun q => by
        rw [hlink]; exact hstate q⟩
  exact hkept.1

theorem flushEntry_routed (p : Port) (e : Urgency × Nat) {s : State} (h : s.routed) :
    (State.flushEntry p s e).routed := by
  rcases flushEntry_cases p s e with e' | ⟨b, -, c, e'⟩ | ⟨b, r, -, hr, -, e'⟩ <;> rw [e']
  · exact h
  · exact h
  · have hr := usable_of_reaimPort h.1 hr
    have hmoved : (s.rejoined b.id e.1 r).routed := State.routed.setQueue (s := { s with fe := s.fe.update b.id _ }) h hr _
    have hcounted : ((s.rejoined b.id e.1 r).count (.port p .reaimed)).routed := hmoved
    exact select_routed r hcounted

/-- The queue work of a port leaves nothing queued on it, and its entries only on usable ports. -/
theorem flush_routed {s : State} (p : Port) (hcosts : s.costsSettled)
    (hidle : ∀ q, q ≠ p → (s.link q).state.usable = false → s.queue q = .empty) : (s.flush p).routed := by
  refine flush_induct (P := State.routed) (fun _ e h => flushEntry_routed p e h) ⟨hcosts, fun q hq => ?_⟩
  by_cases hqp : q = p
  · rw [hqp, State.setQueue_queue_self]
  · rw [State.setQueue_queue_of_ne _ _ hqp]
    exact hidle q hqp hq

theorem settleRoutes_routed {s : State} {p : Port} {old : LinkState} {always : Bool}
    (hcosts : (always || old.reroutes (s.link p).state) = true ∨ s.costsSettled)
    (hidle : ∀ q, q ≠ p ∨ old.usable = false → (s.link q).state.usable = false → s.queue q = .empty) :
    (s.settleRoutes p old always).routed := by
  have hrouted : ∃ t, (if always || old.reroutes (s.link p).state then s.recompute else s) = t ∧ t.costsSettled
      ∧ (∀ q, t.link q = s.link q) ∧ ∀ q, t.queue q = s.queue q := by
    refine ⟨_, rfl, ?_, ?_, ?_⟩ <;> split
    · exact s.recompute_settled
    · next hn => exact hcosts.resolve_left hn
    · exact fun _ => rfl
    · exact fun _ => rfl
    · exact fun _ => rfl
    · exact fun _ => rfl
  obtain ⟨t, ht, hsettled, hlink, hqueue⟩ := hrouted
  simp only [State.settleRoutes, ht, hlink]
  split
  · exact flush_routed p hsettled fun q hq hu => by
      rw [hqueue]
      exact hidle q (.inl hq) (hlink q ▸ hu)
  · next hl =>
    refine ⟨hsettled, fun q hu => ?_⟩
    rw [hlink] at hu
    rw [hqueue]
    refine hidle q ?_ hu
    by_cases hq : q = p
    · right
      subst hq
      simpa only [LinkState.leaves, hu, Bool.not_false, Bool.and_true, Bool.not_eq_true] using hl
    · exact .inl hq

/-- A change of state of which the Route Computer is not told leaves the port's term as it was (R78). -/
theorem portTerm_of_not_rerouted {g : Image} {p : Port} {r r' : LinkRecord}
    (h : r.state.reroutes r'.state = false) (hd : r'.delay = r.delay) (hp : r'.profile = r.profile) :
    portTerm g p r' = portTerm g p r := by
  simp only [LinkState.reroutes, Bool.and_eq_false_iff, Bool.or_eq_false_iff, decide_eq_false_iff_not,
    not_not] at h
  rcases h with ⟨h1, h2⟩ | h
  · rw [portTerm_of_not_usable (by rw [h2]; nofun), portTerm_of_not_usable (by rw [h1]; nofun)]
  · exact portTerm_congr h.symm hd hp

/-- An event of one port: its record changes, and the table is settled on it where a term can have changed. -/
theorem event_routed {s t : State} {p : Port} {r : LinkRecord} {always : Bool} (h : s.routed) (hl : s.LinksAt t p r)
    (hqueue : ∀ q, t.queue q = s.queue q) (hg : t.image = s.image)
    (hkept : always = false → t.rc = s.rc ∧ r.delay = (s.link p).delay ∧ r.profile = (s.link p).profile) :
    (t.settleRoutes p (s.link p).state always).routed := by
  refine settleRoutes_routed ?_ fun q hq hu => ?_
  · rw [hl.self]
    by_cases hr : (always || (s.link p).state.reroutes r.state) = true
    · exact .inl hr
    · right
      obtain ⟨halways, hreroutes⟩ := Bool.or_eq_false_iff.1 (Bool.eq_false_of_not_eq_true hr)
      obtain ⟨hrc, hd, hp⟩ := hkept halways
      refine costsSettled_of_terms h.1 hrc hg fun q => ?_
      rw [hl q]
      split
      · next e => subst e; exact portTerm_of_not_rerouted hreroutes hd hp
      · rfl
  · rw [hqueue]
    rw [hl q] at hu
    split at hu
    · next e =>
      subst e
      exact h.2 q (hq.resolve_left fun hn => hn rfl)
    · exact h.2 q hu

theorem transition_queue (s : State) (p : Port) (f : LinkRecord → LinkRecord) (q : Port) :
    (s.transition p f).queue q = s.queue q := by
  rw [State.transition_frame]
  rfl

theorem selfHail_routed (p : Port) {s : State} (h : s.routed) : (s.selfHail p).routed :=
  event_routed (t := (s.transition p _).forgetCosts p) h
    ((State.LinksAt.refl s p).transition (fun r => r.selfHail (fibrePort p) s.now))
    (transition_queue s p _) (s.transition_image p _) fun h => Bool.noConfusion h

theorem takeFromNeighbour_queue (s : State) (p : Port) (a : Time) (m : Hail) (q : Port) :
    (s.takeFromNeighbour p a m).queue q = s.queue q := by
  simp only [State.takeFromNeighbour, State.countIf]
  split <;> rfl

theorem neighbourHail_routed (p : Port) (a : Time) (m : Hail) {s : State} (h : s.routed) :
    (s.neighbourHail p a m).routed := by
  have hl := State.LinksAt.identified s p a m
  have hl1 := (State.LinksAt.refl s p).transition (fun r => r.identify (fibrePort p) s.now m)
  simp only [State.neighbourHail, hl1.self, hl.self]
  have hsettled := State.recompute_settled { (((s.transition p (fun r => r.identify (fibrePort p) s.now m)).takeFromNeighbour
    p a m).evaluate p false) with
    rc := (((s.transition p (fun r => r.identify (fibrePort p) s.now m)).takeFromNeighbour p a m).evaluate p
      false).rc.take (((s.transition p (fun r => r.identify (fibrePort p) s.now m)).takeFromNeighbour p a m).evaluate p
      false).image p m.vector }
  have hqueue : ∀ q, (((s.transition p (fun r => r.identify (fibrePort p) s.now m)).takeFromNeighbour p a m).evaluate p
      false).queue q = s.queue q := fun q => by
    rw [State.evaluate, transition_queue, takeFromNeighbour_queue, transition_queue]
  generalize (((s.transition p (fun r => r.identify (fibrePort p) s.now m)).takeFromNeighbour p a m).evaluate p
    false) = t at hl hsettled hqueue ⊢
  have hsettled : (t.takeCosts p m).costsSettled := hsettled
  have hother : ∀ q, q ≠ p → ((t.takeCosts p m).link q).state.usable = false → (t.takeCosts p m).queue q = .empty :=
    fun q hq hu => by
      have hu : (t.link q).state.usable = false := hu
      rw [hl q, if_neg hq] at hu
      exact (hqueue q).trans (h.2 q hu)
  split
  · exact flush_routed p hsettled hother
  · next hleft =>
    refine ⟨hsettled, fun q hu => ?_⟩
    by_cases hq : q = p
    · subst hq
      have hu : (t.link q).state.usable = false := hu
      rw [hl.self] at hu
      refine (hqueue q).trans (h.2 q ?_)
      simp only [LinkState.leaves, hu, Bool.or_eq_true, Bool.and_eq_true, Bool.not_eq_true', not_or, not_and] at hleft
      obtain ⟨hleft1, hleft2⟩ := hleft
      by_contra hn
      exact hleft2 (Bool.eq_true_of_not_eq_false (hleft1 (Bool.eq_true_of_not_eq_false hn))) trivial
    · exact hother q hq hu

theorem hail_routed (p : Port) (a : Time) (m : Hail) {s : State} (h : s.routed) : (s.hail p a m).routed := by
  simp only [State.hail]
  split
  · exact selfHail_routed p h
  · exact neighbourHail_routed p a m h

theorem statusWord_routed (p : Port) (w : StatusWord) {s : State} (h : s.routed) : (s.statusWord p w).routed := by
  have hsame := ((s.link p).word s.image w).evaluate_sameHop s.image s.now false
  refine event_routed h (((State.LinksAt.refl s p).setLink ((s.link p).word s.image w)).transition
    (fun r => r.evaluate s.image s.now false)) (transition_queue _ p _) (State.transition_image _ p _) fun hp => ?_
  exact ⟨transition_rc _ p _, hsame.delay, hsame.profile.trans (of_not_not (of_decide_eq_false hp))⟩

theorem silent_routed (p : Port) {s : State} (h : s.routed) : (s.silent p).routed := by
  have hl := (State.LinksAt.refl s p).transition (fun r => r.silent (fibrePort p) s.now)
  simp only [State.silent]
  by_cases hforgets : (s.link p).state.silenceForgets = true
  · rw [if_pos hforgets, hforgets]
    exact event_routed h (t := (s.transition p _).forgetCosts p) hl (transition_queue s p _) (s.transition_image p _)
      fun h => Bool.noConfusion h
  · rw [if_neg hforgets]
    refine event_routed h hl (transition_queue s p _) (s.transition_image p _) fun _ => ⟨transition_rc s p _, ?_⟩
    simp only [LinkRecord.silent]
    split
    case h_6 hs => rw [hs] at hforgets; exact absurd rfl hforgets
    case h_7 hs => rw [hs] at hforgets; exact absurd rfl hforgets
    all_goals exact ⟨rfl, rfl⟩

theorem timerEvent_routed (p : Port) {s : State} (h : s.routed) : (s.timerEvent p).routed := by
  have hsame := (s.link p).evaluate_sameHop s.image s.now true
  exact event_routed h ((State.LinksAt.refl s p).transition (fun r => r.evaluate s.image s.now true))
    (transition_queue s p _) (s.transition_image p _) fun _ => ⟨transition_rc s p _, hsame.delay, hsame.profile⟩

theorem settleEvent_routed (p : Port) {s : State} (h : s.routed) : (s.settleEvent p).routed := by
  have hsame := ((s.link p).settle s.image).evaluate_sameHop s.image s.now false
  exact event_routed h (((State.LinksAt.refl s p).setLink ((s.link p).settle s.image)).transition
    (fun r => r.evaluate s.image s.now false)) (transition_queue _ p _) (State.transition_image _ p _)
    fun _ => ⟨transition_rc _ p _, hsame.delay, hsame.profile⟩

theorem act_routed (a : Port × Action) {s : State} (h : s.routed) : (s.act a).routed := by
  refine event_routed h ((State.LinksAt.refl s a.1).setLink ((s.link a.1).act s.now a.2)) (fun _ => rfl) rfl
    fun _ => ⟨rfl, ?_⟩
  cases a.2 <;> (simp only [LinkRecord.act]; split <;> exact ⟨rfl, rfl⟩)

/-! ### Every move -/

theorem handOver_routed (p : Port) (b : Buffer) {s : State} (h : s.routed) : (s.handOver p b).routed := by
  have hfiltered : (s.filtered p b).routed := h
  rw [handOver_eq]
  split
  · exact makeCopies_routed b hfiltered
  · exact hfiltered

theorem State.routed.release {s : State} (h : s.routed) (i : Nat) : (s.release i).routed := h

theorem endTraffic_routed (p : Port) (i : Nat) (f : Frame) {s : State} (h : s.routed) : (s.endTraffic p i f).routed := by
  rcases endTraffic_cases s p i f with e | ⟨hd, payload, ⟨-, e⟩ | ⟨b, -, e⟩⟩ <;> rw [e]
  · exact h
  · exact h
  · refine (handOver_routed p b ?_).release i
    exact h

theorem copiesOf_routed (i : Nat) {s : State} (h : s.routed) : (s.copiesOf i).1.routed := by
  simp only [State.copiesOf]
  split
  · exact makeCopies_routed _ h
  · exact h

theorem costsSettled_of_empty {s : State} (h : s.rc.entries = []) : s.costsSettled := by
  rw [State.costsSettled, RouteComputer.recompute, h]
  cases hrc : s.rc with
  | mk entries full =>
    rw [hrc] at h
    obtain rfl : entries = [] := h
    rfl

theorem startBlocks_routed {s : State} (hq : s.quiet) (hs : s.inService = false) : s.startBlocks.routed := by
  obtain ⟨hports, -, -, -, hentries, -⟩ := hq hs
  refine ⟨?_, fun p _ => (hports p).2⟩
  have hrc : s.startBlocks.rc = s.rc.start s.image := rfl
  by_cases hend : s.image.isEnd = true
  · have himage : s.startBlocks.image = s.image := rfl
    have hself : CostEntry.isOwn (.self s.image.number) s.image = true := (CostEntry.isOwn_iff _ _).2 ⟨hend, rfl⟩
    rw [State.costsSettled, hrc, himage]
    simp only [RouteComputer.start, hend, if_true, hentries, insertEntry, RouteComputer.recompute, List.map_cons,
      List.map_nil]
    rw [CostEntry.recompute_of_own _ hself]
    rfl
  · refine costsSettled_of_empty ?_
    rw [hrc, RouteComputer.start, if_neg hend, hentries]

theorem Move.keeps_routed {s t : State} (m : Move s t) (hq : s.quiet) (h : s.routed) : t.routed := by
  have hof : ∀ {t : State}, EgressWork s t → (∀ p, t.queue p = s.queue p) → t.routed := fun w hqueue =>
    h.of_work (w.costsSettled h.1) (fun p => LinkRecord.hailedFrom_state (w.link p)) hqueue
  cases m with
  | bookkeeping hb =>
    refine h.of_work (costsSettled_of_terms h.1 hb.rc hb.image fun p => ?_) (fun p => ?_) fun p => ?_
    · rw [hb.link p]; exact portTerm_congr rfl rfl rfl
    · rw [hb.link p]
    · rw [State.queue, hb.fe]; rfl
  | powerOn hp =>
    rw [(execPowerOn_next hp).1]
    exact ⟨costsSettled_of_empty rfl, fun p _ => by cases p <;> rfl⟩
  | select p => exact select_routed p h
  | deliver =>
    have w := DeliveryWork.tryDeliver s
    exact h.of_work (w.costsSettled h.1) (fun p => by rw [State.link, w.lm]; rfl) w.queue
  | @claim p =>
    rcases beginTraffic_cases s p with ⟨i, fe, hg, e⟩ | ⟨-, e⟩ <;> rw [e]
    · refine h.of_work h.1 (fun _ => rfl) fun q => ?_
      exact congrArg (fun x => PerPort.get x q) (grant_queues hg)
    · exact h
  | receive | endReception | dropTraffic | hailDeparted | trafficDeparted => exact h
  | endTraffic f => exact endTraffic_routed _ _ f h
  | @hail p a f m => exact hail_routed p a m (s := (s.setRx p .idle).count (.port p .hailRx)) h
  | @statusWord p word w => exact statusWord_routed p w h
  | @hailTimer p =>
    refine h.of_work (costsSettled_of_terms h.1 rfl rfl fun q => ?_) (fun q => ?_) fun _ => rfl
    · by_cases hq : q = p
      · rw [hq, State.setLink_link_self]; exact portTerm_congr rfl rfl rfl
      · rw [State.setLink_link_of_ne _ _ hq]
    · by_cases hq : q = p
      · rw [hq, State.setLink_link_self]
      · rw [State.setLink_link_of_ne _ _ hq]
  | @silent p => exact silent_routed p h
  | @timer p => exact timerEvent_routed p h
  | @settle p => exact settleEvent_routed p h
  | act a => exact act_routed a h
  | @ingress q i fe hs hg =>
    have hgranted : ({ s with fe := fe, af := s.af.ingress s.lpc.nextSequence s.now }.advanceSequence).routed :=
      h.of_work h.1 (fun _ => rfl) fun q => congrArg (fun x => PerPort.get x q) (grant_queues hg)
    exact (copiesOf_routed i hgranted).release i
  | delivered =>
    rcases dropDeliveryHead_cases s with ⟨-, e⟩ | ⟨i, l, -, e⟩ <;> rw [e] <;> exact h
  | start hs => exact startBlocks_routed hq hs
  | rejoin =>
    refine ⟨State.recompute_settled _, fun p _ => ?_⟩
    rw [State.recompute_queue]
    exact rejoinBlocks_queue s p
  | configure g hs =>
    obtain ⟨-, -, -, -, hentries, -⟩ := hq hs
    exact ⟨costsSettled_of_empty hentries, h.2⟩

theorem Move.keeps_routes {s t : State} (m : Move s t)
    (h : s.dormant ∧ s.quiet ∧ s.costsSettled ∧ s.idleQueuesEmpty) :
    t.dormant ∧ t.quiet ∧ t.costsSettled ∧ t.idleQueuesEmpty := by
  obtain ⟨hd, hq, hcosts, hidle⟩ := h
  obtain ⟨hcosts', hidle'⟩ := m.keeps_routed hq ⟨hcosts, hidle⟩
  exact ⟨m.keeps_dormant hd, m.keeps_quiet hd hq, hcosts', hidle'⟩

/-- Settles O57: a move recomputes wherever a term of a port can have changed, and queues copies on usable ports alone. -/
theorem stepKeepsRoutesCheapestAndIdleQueuesEmpty : Obligations.StepKeepsRoutesCheapestAndIdleQueuesEmpty := by
  unfold Obligations.StepKeepsRoutesCheapestAndIdleQueuesEmpty
  have hkept := @step_keeps (fun s => s.dormant ∧ s.quiet ∧ s.costsSettled ∧ s.idleQueuesEmpty)
    fun _ _ m => m.keeps_routes
  exact fun s t hs => @hkept s t hs

end Sys2Proof.Machine

/-! The Seen Table: no origin in two slots, none of slots 1 to 15 for this station, each marking its highest sequence
(R98); and slot 0 one sequence behind the next (R99, R141). -/

namespace Sys2Proof.Machine

/-! ### Slots by index -/

/-- Slot `i` of slots 1 to 15, counted from 0, holds `t`. -/
def holdsAt (l : List (Option Slot)) (i : Nat) (t : Slot) : Prop := l[i]? = some (some t)

/-- The laws of slots 1 to 15 at the station numbered `own`, slot by slot (R98). -/
def slotsLawful (own : Nat) (l : List (Option Slot)) : Prop :=
  (∀ i j a b, holdsAt l i a → holdsAt l j b → a.origin = b.origin → i = j)
  ∧ ∀ i a, holdsAt l i a → a.origin ≠ own ∧ a.window.getLsbD 0 = true

theorem mem_filterMap_slots (l : List (Option Slot)) (t : Slot) : t ∈ l.filterMap id ↔ ∃ i, holdsAt l i t := by
  rw [List.mem_filterMap]
  simp only [id_eq, exists_eq_right]
  exact List.mem_iff_getElem?

theorem slotsLawful_iff (own : Nat) (l : List (Option Slot)) :
    slotsLawful own l ↔ (l.filterMap id).Pairwise (fun a b => a.origin ≠ b.origin)
      ∧ ∀ t ∈ l.filterMap id, t.origin ≠ own ∧ t.window.getLsbD 0 = true := by
  have hmem : (∀ t ∈ l.filterMap id, t.origin ≠ own ∧ t.window.getLsbD 0 = true)
      ↔ ∀ i a, holdsAt l i a → a.origin ≠ own ∧ a.window.getLsbD 0 = true := by
    simp only [mem_filterMap_slots, forall_exists_index]
    exact forall_comm
  rw [hmem, slotsLawful, List.pairwise_filterMap, List.pairwise_iff_getElem]
  refine and_congr_left fun _ => ⟨fun h i j hi hj hij a ha b hb he => ?_, fun h i j a b ha hb he => ?_⟩
  · have := h i j a b (by rw [holdsAt, List.getElem?_eq_getElem hi]; exact congrArg some ha)
      (by rw [holdsAt, List.getElem?_eq_getElem hj]; exact congrArg some hb) he
    omega
  · obtain ⟨hi, ha⟩ := List.getElem?_eq_some_iff.1 ha
    obtain ⟨hj, hb⟩ := List.getElem?_eq_some_iff.1 hb
    rcases Nat.lt_trichotomy i j with hlt | heq | hlt
    · exact absurd he (h i j hi hj hlt a ha b hb)
    · exact heq
    · exact absurd he.symm (h j i hj hi hlt b hb a ha)

theorem holdsAt_set {l : List (Option Slot)} {i j : Nat} {t a : Slot} (h : holdsAt (l.set i (some t)) j a) :
    (j = i ∧ a = t) ∨ (j ≠ i ∧ holdsAt l j a) := by
  rw [holdsAt, List.getElem?_set] at h
  split at h
  · next e =>
    split at h
    · exact .inl ⟨e.symm, (Option.some.inj (Option.some.inj h)).symm⟩
    · cases h
  · next e => exact .inr ⟨fun e' => e e'.symm, h⟩

/-- A slot written for an origin that no other slot holds. -/
theorem slotsLawful.set {own : Nat} {l : List (Option Slot)} (h : slotsLawful own l) {i : Nat} {t : Slot}
    (hother : ∀ j a, holdsAt l j a → a.origin = t.origin → j = i) (hown : t.origin ≠ own)
    (hmark : t.window.getLsbD 0 = true) : slotsLawful own (l.set i (some t)) := by
  obtain ⟨hdistinct, hlaw⟩ := h
  refine ⟨fun j k a b ha hb he => ?_, fun j a ha => ?_⟩
  · rcases holdsAt_set ha with ⟨hj, hat⟩ | ⟨hj, ha'⟩ <;> rcases holdsAt_set hb with ⟨hk, hbt⟩ | ⟨hk, hb'⟩
    · rw [hj, hk]
    · exact absurd (hother k b hb' (he.symm.trans (by rw [hat]))) hk
    · exact absurd (hother j a ha' (he.trans (by rw [hbt]))) hj
    · exact hdistinct j k a b ha' hb' he
  · rcases holdsAt_set ha with ⟨-, rfl⟩ | ⟨-, ha⟩
    · exact ⟨hown, hmark⟩
    · exact hlaw j a ha

/-! ### The judgement -/

theorem Slot.judge_origin (t : Slot) (q : BitVec 16) (now : Time) : (t.judge q now).2.origin = t.origin := by
  simp only [Slot.judge]
  repeat' split
  all_goals rfl

theorem shiftWindow_marks (w : BitVec 512) (d : Nat) : (shiftWindow w d).getLsbD 0 = true := by
  rw [getLsbD_shiftWindow w d (by decide)]
  rfl

theorem Slot.judge_marks {t : Slot} (h : t.window.getLsbD 0 = true) (q : BitVec 16) (now : Time) :
    (t.judge q now).2.window.getLsbD 0 = true := by
  simp only [Slot.judge]
  split
  · exact h
  · split
    · exact shiftWindow_marks _ _
    · split
      · split
        · exact h
        · rw [getLsbD_mark _ _ (by decide), h, Bool.or_true]
      · exact h

theorem Slot.fresh_marks (o : Nat) (n : Byte) (q : BitVec 16) (now : Time) :
    (Slot.fresh o n q now).window.getLsbD 0 = true := by
  simp [Slot.fresh]

theorem Slot.test_origin (t : Slot) (n : Byte) (q : BitVec 16) (now : Time) : (t.test n q now).2.1.origin = t.origin := by
  simp only [Slot.test]
  split
  · exact t.judge_origin q now
  · split <;> rfl

theorem Slot.test_marks {t : Slot} (h : t.window.getLsbD 0 = true) (n : Byte) (q : BitVec 16) (now : Time) :
    (t.test n q now).2.1.window.getLsbD 0 = true := by
  simp only [Slot.test]
  split
  · exact Slot.judge_marks h q now
  · split
    · exact Slot.fresh_marks _ _ _ _
    · exact h

/-- What a judgement can be: ECHO; the verdict on the slot that holds the origin; FIRST in a slot newly given; or NOSLOT
(R101 to R103). -/
inductive JudgementCase (own idleLimit : Nat) (now : Time) (slots : Vector (Option Slot) 15) (o : Nat) (n : Byte)
    (q : BitVec 16) : Judgement → Prop
  | echo (ho : o = own) : JudgementCase own idleLimit now slots o n q ⟨.echo, slots, false⟩
  | held (ho : o ≠ own) (i : Nat) (t : Slot) (hi : slots.toList.findIdx? (holdsOrigin o) = some i)
      (ht : holdsAt slots.toList i t) (hto : t.origin = o) :
      JudgementCase own idleLimit now slots o n q
        ⟨(t.test n q now).1, slots.setIfInBounds i (some (t.test n q now).2.1), (t.test n q now).2.2⟩
  | taken (ho : o ≠ own) (i : Nat) (hnone : slots.toList.findIdx? (holdsOrigin o) = none)
      (hi : slotFor slots.toList idleLimit now = some i) :
      JudgementCase own idleLimit now slots o n q ⟨.first, slots.setIfInBounds i (some (.fresh o n q now)), false⟩
  | noSlot (ho : o ≠ own) (hnone : slots.toList.findIdx? (holdsOrigin o) = none)
      (hi : slotFor slots.toList idleLimit now = none) :
      JudgementCase own idleLimit now slots o n q ⟨.noSlot, slots, false⟩

/-- The slot that a search for an origin finds holds it. -/
theorem holdsAt_of_findIdx? {l : List (Option Slot)} {o i : Nat} (h : l.findIdx? (holdsOrigin o) = some i) :
    ∃ t, holdsAt l i t ∧ t.origin = o := by
  obtain ⟨hi, hholds, -⟩ := List.findIdx?_eq_some_iff_getElem.1 h
  cases ht : l[i] with
  | none => rw [ht] at hholds; exact absurd hholds Bool.false_ne_true
  | some t =>
    rw [ht] at hholds
    exact ⟨t, by rw [holdsAt, List.getElem?_eq_getElem hi, ht], of_decide_eq_true hholds⟩

theorem origin_ne_of_findIdx?_none {l : List (Option Slot)} {o : Nat} (h : l.findIdx? (holdsOrigin o) = none) {j : Nat}
    {a : Slot} (ha : holdsAt l j a) : a.origin ≠ o :=
  of_decide_eq_false (List.findIdx?_eq_none_iff.1 h (some a) (List.mem_of_getElem? ha))

theorem judge_cases (own idleLimit : Nat) (now : Time) (slots : Vector (Option Slot) 15) (o : Nat) (n : Byte)
    (q : BitVec 16) : JudgementCase own idleLimit now slots o n q (judge own idleLimit now slots o n q) := by
  simp only [judge]
  split
  · next ho => exact .echo ho
  · next ho =>
    split
    · next i hi =>
      obtain ⟨t, ht, hto⟩ := holdsAt_of_findIdx? hi
      have hget : slots.toList.getD i none = some t := by rw [List.getD_eq_getElem?_getD, ht]; rfl
      rw [hget]
      exact .held ho i t hi ht hto
    · next hnone =>
      split
      · next i hi => exact .taken ho i hnone hi
      · next hi => exact .noSlot ho hnone hi

theorem judge_lawful {own idleLimit : Nat} {now : Time} {slots : Vector (Option Slot) 15} {o : Nat} {n : Byte}
    {q : BitVec 16} (h : slotsLawful own slots.toList) :
    slotsLawful own (judge own idleLimit now slots o n q).slots.toList := by
  have hcase := judge_cases own idleLimit now slots o n q
  generalize judge own idleLimit now slots o n q = j at hcase ⊢
  cases hcase with
  | echo | noSlot => exact h
  | held ho i t hi ht hto =>
    rw [Vector.toList_setIfInBounds]
    have horigin := t.test_origin n q now
    refine h.set (fun j a ha he => h.1 j i a t ha ht (he.trans horigin)) ?_ ?_
    · rw [horigin]; exact (h.2 i t ht).1
    · exact Slot.test_marks (h.2 i t ht).2 n q now
  | taken ho i hnone hi =>
    rw [Vector.toList_setIfInBounds]
    exact h.set (fun j a ha he => absurd he (origin_ne_of_findIdx?_none hnone ha)) ho (Slot.fresh_marks _ _ _ _)

/-! ### The state -/

theorem State.seenLawful_iff (s : State) : s.seenLawful ↔ slotsLawful s.image.number s.af.slots.toList
    ∧ (s.inService = true → s.af.own.origin = s.image.number ∧ s.af.own.startNumber = s.image.startNumber
      ∧ s.af.own.highest = s.lpc.nextSequence - 1) := by
  rw [slotsLawful_iff, and_assoc]

/-- What the laws of the Seen Table read is left as it was. -/
structure SeenFrame (s t : State) : Prop where
  slots : t.af.slots = s.af.slots
  own : t.af.own = s.af.own
  nextSequence : t.lpc.nextSequence = s.lpc.nextSequence
  slc : t.slc = s.slc

theorem SeenFrame.refl (s : State) : SeenFrame s s := ⟨rfl, rfl, rfl, rfl⟩

theorem SeenFrame.trans {s t u : State} (h1 : SeenFrame s t) (h2 : SeenFrame t u) : SeenFrame s u :=
  ⟨h2.slots.trans h1.slots, h2.own.trans h1.own, h2.nextSequence.trans h1.nextSequence, h2.slc.trans h1.slc⟩

theorem SeenFrame.of_line {s t : State} (h : LineWork s t) : SeenFrame s t :=
  ⟨congrArg ArrivalFilter.slots h.af, congrArg ArrivalFilter.own h.af, congrArg LocalPort.nextSequence h.lpc, h.slc⟩

theorem SeenFrame.of_egress {s t : State} (h : EgressWork s t) : SeenFrame s t := .of_line (.of_egress h)

theorem SeenFrame.of_delivery {s t : State} (h : DeliveryWork s t) : SeenFrame s t :=
  ⟨congrArg ArrivalFilter.slots h.af, congrArg ArrivalFilter.own h.af, h.nextSequence, h.slc⟩

theorem SeenFrame.makeCopies (s : State) (b : Buffer) : SeenFrame s (s.makeCopies b).1 :=
  makeCopies_induct (P := SeenFrame s) (fun _ _ h => h.trans ⟨rfl, rfl, rfl, rfl⟩)
    (fun _ h => h.trans (.of_egress (.placeCopies _ _ _ _)))
    (fun _ h => h.trans (.of_delivery (.placeLocal _ _))) (.refl s)

theorem SeenFrame.copiesOf (s : State) (i : Nat) : SeenFrame s (s.copiesOf i).1 := by
  simp only [State.copiesOf]
  split
  · exact .makeCopies s _
  · exact .refl s

theorem State.seenLawful.frame {s t : State} (h : s.seenLawful) (f : SeenFrame s t) : t.seenLawful := by
  rw [State.seenLawful_iff] at h ⊢
  rw [State.inService, State.image, f.slots, f.own, f.nextSequence, f.slc]
  exact h

theorem filtered_seenLawful (p : Port) (b : Buffer) {s : State} (h : s.seenLawful) : (s.filtered p b).seenLawful := by
  rw [State.seenLawful_iff] at h ⊢
  have hslots : (s.filtered p b).af.slots = (s.judged b).slots
      ∧ (s.filtered p b).af.own = s.af.own := by
    simp only [State.filtered, ArrivalFilter.after]
    split
    · exact ⟨rfl, rfl⟩
    · simp only [ArrivalFilter.measure]
      split <;> exact ⟨rfl, rfl⟩
    · exact ⟨rfl, rfl⟩
  rw [hslots.1, hslots.2]
  exact ⟨judge_lawful h.1, h.2⟩

theorem handOver_seenLawful (p : Port) (b : Buffer) {s : State} (h : s.seenLawful) : (s.handOver p b).seenLawful := by
  have hfiltered := filtered_seenLawful p b h
  rw [handOver_eq]
  split
  · exact hfiltered.frame (.makeCopies _ b)
  · exact hfiltered

theorem State.seenLawful.release {s : State} (h : s.seenLawful) (i : Nat) : (s.release i).seenLawful := h

theorem endTraffic_seenLawful (p : Port) (i : Nat) (f : Frame) {s : State} (h : s.seenLawful) :
    (s.endTraffic p i f).seenLawful := by
  rcases endTraffic_cases s p i f with e | ⟨hd, payload, ⟨-, e⟩ | ⟨b, -, e⟩⟩ <;> rw [e]
  · exact h
  · exact h
  · refine (handOver_seenLawful p b ?_).release i
    exact h

theorem SeenFrame.dropDeliveryHead (s : State) : SeenFrame s s.dropDeliveryHead := by
  rcases dropDeliveryHead_cases s with ⟨-, e⟩ | ⟨i, l, -, e⟩ <;> rw [e]
  · exact .refl s
  · exact ⟨rfl, rfl, rfl, rfl⟩

theorem LocalPort.cutDelivery_nextSequence (l : LocalPort) : l.cutDelivery.nextSequence = l.nextSequence := by
  simp only [LocalPort.cutDelivery]
  split <;> rfl

theorem SeenFrame.rejoinBlocks (s : State) : SeenFrame s s.rejoinBlocks := by
  have haf : s.rejoinBlocks.af = { s.emptyQueues.af with ring := [] } := rfl
  have hlpc : s.rejoinBlocks.lpc = s.emptyQueues.lpc.cutDelivery := rfl
  have hslc : s.rejoinBlocks.slc = s.emptyQueues.slc := rfl
  refine ⟨?_, ?_, ?_, ?_⟩
  · rw [haf, emptyQueues_frame]
  · rw [haf, emptyQueues_frame]
  · rw [hlpc, emptyQueues_frame, LocalPort.cutDelivery_nextSequence]
  · rw [hslc, emptyQueues_frame]

theorem holdsAt_replicate_none {n i : Nat} {t : Slot} : ¬ holdsAt (List.replicate n none) i t := by
  intro h
  have := List.mem_of_getElem? h
  exact absurd (List.eq_of_mem_replicate this) nofun

theorem slotsLawful_of_free (own : Nat) {slots : Vector (Option Slot) 15} (h : slots = .replicate 15 none) :
    slotsLawful own slots.toList := by
  rw [h, Vector.toList_replicate]
  exact ⟨fun i j a b ha => absurd ha holdsAt_replicate_none, fun i a ha => absurd ha holdsAt_replicate_none⟩

/-- Slot 0 follows the sequence that an accepted request takes (R99, R141). -/
theorem ingress_seenLawful {s : State} (fe : Forwarding) (h : s.seenLawful) :
    ({ s with fe := fe, af := s.af.ingress s.lpc.nextSequence s.now }.advanceSequence).seenLawful := by
  rw [State.seenLawful_iff] at h ⊢
  obtain ⟨hslots, hown⟩ := h
  refine ⟨hslots, fun hs => ?_⟩
  obtain ⟨horigin, hstart, -⟩ := hown hs
  exact ⟨horigin, hstart, (BitVec.add_sub_cancel s.lpc.nextSequence 1).symm⟩

theorem Move.keeps_seenLawful {s t : State} (m : Move s t) (hq : s.quiet) (h : s.seenLawful) : t.seenLawful := by
  cases m with
  | bookkeeping hb =>
    rw [State.seenLawful_iff] at h ⊢
    rw [hb.slots, hb.own, hb.nextSequence, hb.image, hb.inService]
    exact h
  | powerOn hp =>
    rw [State.seenLawful_iff, (execPowerOn_next hp).1]
    exact ⟨slotsLawful_of_free _ rfl, fun hs => absurd hs Bool.false_ne_true⟩
  | select p => exact h.frame (.of_egress (.select s p))
  | deliver => exact h.frame (.of_delivery (.tryDeliver s))
  | @claim p =>
    rcases beginTraffic_cases s p with ⟨i, fe, -, e⟩ | ⟨-, e⟩ <;> rw [e]
    · exact h.frame ⟨rfl, rfl, rfl, rfl⟩
    · exact h.frame ⟨rfl, rfl, rfl, rfl⟩
  | receive | endReception | dropTraffic | hailDeparted | trafficDeparted | hailTimer =>
    exact h.frame ⟨rfl, rfl, rfl, rfl⟩
  | @endTraffic p i f => exact endTraffic_seenLawful p i f (s := s.setRx p .idle) h
  | @hail p a f m =>
    have hended : SeenFrame s ((s.setRx p .idle).count (.port p .hailRx)) := ⟨rfl, rfl, rfl, rfl⟩
    exact h.frame (hended.trans (.of_line (.hail _ p a m)))
  | @statusWord p word w => exact h.frame (.of_line (.statusWord s p w))
  | silent => exact h.frame (.of_line (.silent s _))
  | timer => exact h.frame (.of_line (.timerEvent s _))
  | settle => exact h.frame (.of_line (.settleEvent s _))
  | act a => exact h.frame (.of_line (.act s a))
  | @ingress q i fe =>
    have hcopied := (ingress_seenLawful fe h).frame (.copiesOf _ i)
    exact hcopied.release i
  | delivered => exact h.frame ((SeenFrame.dropDeliveryHead s).trans ⟨rfl, rfl, rfl, rfl⟩)
  | start hs =>
    obtain ⟨-, -, -, -, -, -, -, hslots⟩ := hq hs
    rw [State.seenLawful_iff]
    exact ⟨slotsLawful_of_free _ hslots, fun _ => ⟨rfl, rfl, rfl⟩⟩
  | rejoin => exact h.frame ((SeenFrame.rejoinBlocks s).trans (.of_line (.recompute _)))
  | configure g hs =>
    obtain ⟨-, -, -, -, -, -, -, hslots⟩ := hq hs
    rw [State.seenLawful_iff]
    exact ⟨slotsLawful_of_free _ hslots, fun hs' => absurd (hs'.symm.trans hs) nofun⟩

theorem Move.keeps_seen {s t : State} (m : Move s t) (h : s.dormant ∧ s.quiet ∧ s.seenLawful) :
    t.dormant ∧ t.quiet ∧ t.seenLawful := by
  obtain ⟨hd, hq, hseen⟩ := h
  exact ⟨m.keeps_dormant hd, m.keeps_quiet hd hq, m.keeps_seenLawful hq hseen⟩

/-- Settles O58: a judgement writes the slot that holds the origin or one newly given to it, and slot 0 follows the
sequences of this station. -/
theorem stepKeepsSeenTableLawful : Obligations.StepKeepsSeenTableLawful := by
  unfold Obligations.StepKeepsSeenTableLawful
  have hkept := @step_keeps (fun s => s.dormant ∧ s.quiet ∧ s.seenLawful) fun _ _ m => m.keeps_seen
  exact fun s t hs => @hkept s t hs

/-- Settles O59: each law read off the power-on values. -/
theorem resetHasEveryLaw : Obligations.ResetHasEveryLaw := by
  unfold Obligations.ResetHasEveryLaw
  have hrecord := reset_link
  refine ⟨Forwarding.powerOn_wf, fun i => rfl, fun p => ?_, fun _ => ?_, ?_, fun p => ?_, fun p => ?_, fun p => ?_,
    costsSettled_of_empty rfl, fun p _ => by cases p <;> rfl, ?_⟩
  · rw [hrecord]
    exact ⟨fun _ => ⟨by cases p <;> rfl, rfl⟩, fun _ => rfl⟩
  · exact ⟨fun p => by cases p <;> exact ⟨rfl, rfl⟩, rfl, rfl, rfl, rfl, rfl, rfl, rfl⟩
  · rw [State.withinLimits_iff]
    exact ⟨⟨fun p => by cases p <;> exact Nat.zero_le _, Nat.zero_le _, Nat.zero_le _⟩, ⟨Nat.zero_le _, .nil⟩,
      powerOn_inLimits⟩
  · rw [hrecord]; exact powerOn_lawful _
  · rw [hrecord]; exact powerOnRecord_marginsAgree _ p
  · rw [hrecord]; exact fun he => absurd he Bool.false_ne_true
  · rw [State.seenLawful_iff]
    exact ⟨slotsLawful_of_free _ rfl, fun hs => absurd hs Bool.false_ne_true⟩

end Sys2Proof.Machine

/-! Steps, the clocks and the resets: what the front command, a tick, POWER_ON and its release do (chapters 1, 2). -/

namespace Sys2Proof.Machine

/-! ### Station time -/

/-- Two divisions in a row, carrying the remainder, are one division of the sum. -/
theorem carry_add (n a b : Nat) : a / n + (a % n + b) / n = (a + b) / n := by
  conv_rhs => rw [← Nat.mod_add_div a n, Nat.add_right_comm]
  rcases Nat.eq_zero_or_pos n with rfl | hn
  · simp
  · rw [Nat.add_mul_div_left _ _ hn, Nat.add_comm]

theorem TimeUnit.advance_advance (t : TimeUnit) (d e : Nat) : (t.advance d).advance e = t.advance (d + e) := by
  simp only [TimeUnit.advance, Nat.add_mul, ← Nat.add_assoc, BitVec.add_assoc, ← BitVec.ofNat_add, carry_add,
    Nat.mod_add_mod]

/-- The count that station time takes in an advance of `d` ns (R23). -/
def TimeUnit.elapsedSt (t : TimeUnit) (d : Nat) : Nat := (t.frac + d * ((fracUnit : Int) + t.trim).toNat) / fracUnit

theorem TimeUnit.elapsedSt_exact (t : TimeUnit) (d : Nat) (h : -200000 ≤ t.trim) :
    (t.elapsedSt d : Int) * 1000000000 + (t.advance d).frac = t.frac + d * (1000000000 + t.trim) := by
  have hrate : (((fracUnit : Int) + t.trim).toNat : Int) = 1000000000 + t.trim := by
    unfold fracUnit
    omega
  have hdiv := Nat.div_add_mod (t.frac + d * ((fracUnit : Int) + t.trim).toNat) 1000000000
  have hcast := congrArg (Nat.cast (R := Int)) hdiv
  push_cast at hcast
  rw [hrate] at hcast
  show (((_ / 1000000000 : Nat) : Int)) * 1000000000 + ((_ % 1000000000 : Nat) : Int) = _
  push_cast
  rw [hrate]
  linarith

/-- Settles O3: the quotient and the remainder of one division carry the exact value. -/
theorem stationTimeAdvancesExactly : Obligations.StationTimeAdvancesExactly := by
  intro t d hlow hhigh hfrac
  refine ⟨⟨t.elapsedSt d, rfl, rfl, Nat.mod_lt _ (by decide), t.elapsedSt_exact d hlow, ?_⟩,
    fun e => t.advance_advance d e⟩
  have hexact := t.elapsedSt_exact d hlow
  have hnew : (t.advance d).frac < 1000000000 := Nat.mod_lt _ (by decide)
  rw [abs_lt]
  constructor <;> omega

/-! ### Ticks -/

theorem mem_dueIf (b : Bool) (c d : Instr) : d ∈ dueIf b c ↔ d = c ∧ b = true := by
  cases b <;> simp [dueIf]

theorem expired_iff (now start : Time) (d : Nat) : expired now start d = true ↔ d ≤ (now - start).toNat :=
  decide_eq_true_iff

theorem LinkRecord.silenceExpired_iff (r : LinkRecord) (g : Image) (now : Time) :
    r.silenceExpired g now = true ↔ ∃ x, r.silence = some x ∧ g.silenceNs ≤ (now - x).toNat := by
  cases h : r.silence <;> simp [LinkRecord.silenceExpired, h, expired_iff]

theorem LinkRecord.hailExpired_iff (r : LinkRecord) (g : Image) (now : Time) :
    r.hailExpired g now = true ↔ ∃ x, r.hailTimer = some x ∧ g.hailNs ≤ (now - x).toNat := by
  cases h : r.hailTimer <;> simp [LinkRecord.hailExpired, h, expired_iff]

theorem LinkRecord.timerExpired_iff (r : LinkRecord) (k : TimerKind) (now : Time) :
    r.timerExpired k now = true ↔ ∃ x, r.stateTimer = some x ∧ x.duration ≤ (now - x.start).toNat ∧ x.kind = k := by
  cases h : r.stateTimer <;> simp [LinkRecord.timerExpired, h, expired_iff, and_comm]

theorem TimeUnit.scheduleDue_iff (t : TimeUnit) :
    t.scheduleDue = true ↔ t.schedule.armed = true ∧ (t.st - t.schedule.target).toNat < 2 ^ 47 := by
  rw [TimeUnit.scheduleDue, Bool.and_eq_true, decide_eq_true_iff]
  rfl

theorem State.mem_dueOn (s : State) (p : Port) (c : Instr) :
    c ∈ s.dueOn p ↔ (c = .fadeTimeAccrual p ∧ 1000 ≤ (s.link p).fadeRemainder)
      ∨ (c = .silenceExpiry p ∧ ∃ x, (s.link p).silence = some x ∧ s.image.silenceNs ≤ (s.now - x).toNat)
      ∨ (c = .hailTimerExpiry p ∧ ∃ x, (s.link p).hailTimer = some x ∧ s.image.hailNs ≤ (s.now - x).toNat)
      ∨ (∃ x, (s.link p).stateTimer = some x ∧ x.duration ≤ (s.now - x.start).toNat
          ∧ ((c = .holdExpiry p ∧ x.kind = .hold) ∨ (c = .trialExpiry p ∧ x.kind = .trial)
            ∨ (c = .settleExpiry p ∧ x.kind = .settle))) := by
  simp only [State.dueOn, List.mem_append, mem_dueIf, LinkRecord.silenceExpired_iff, LinkRecord.hailExpired_iff,
    LinkRecord.timerExpired_iff, decide_eq_true_iff]
  constructor
  · rintro (((((h | h) | ⟨hc, x, hx, hd, hk⟩) | ⟨hc, x, hx, hd, hk⟩) | ⟨hc, x, hx, hd, hk⟩) | h)
    · exact .inl h
    · exact .inr (.inl h)
    · exact .inr (.inr (.inr ⟨x, hx, hd, .inl ⟨hc, hk⟩⟩))
    · exact .inr (.inr (.inr ⟨x, hx, hd, .inr (.inl ⟨hc, hk⟩)⟩))
    · exact .inr (.inr (.inr ⟨x, hx, hd, .inr (.inr ⟨hc, hk⟩)⟩))
    · exact .inr (.inr (.inl h))
  · rintro (h | h | h | ⟨x, hx, hd, ⟨hc, hk⟩ | ⟨hc, hk⟩ | ⟨hc, hk⟩⟩)
    · exact .inl (.inl (.inl (.inl (.inl h))))
    · exact .inl (.inl (.inl (.inl (.inr h))))
    · exact .inr h
    · exact .inl (.inl (.inl (.inr ⟨hc, x, hx, hd, hk⟩)))
    · exact .inl (.inl (.inr ⟨hc, x, hx, hd, hk⟩))
    · exact .inl (.inr ⟨hc, x, hx, hd, hk⟩)

theorem State.mem_due (s : State) (c : Instr) :
    c ∈ s.due ↔ (∃ p, c ∈ s.dueOn p) ∨ (c = .scheduleMatch ∧ s.tu.scheduleDue = true) := by
  simp [State.due, mem_dueIf, Port.mem_all]

theorem step_of_pending_nil {s : State} (h : s.pending = []) : step s = .next s.tick := by
  simp [step, h]

/-- The tick of a station whose reset pin is released. -/
theorem State.tick_running {s : State} (h : s.resetHeld = false) :
    s.tick = { s.advance 1 with pending := s.pending ++ (s.advance 1).due } := by
  rw [State.tick, if_neg (by simp [h])]
  rfl

theorem LinkRecord.accrue_one (r : LinkRecord) :
    r.accrue 1 = { r with fadeRemainder := r.fadeRemainder +
      if r.state = .faded ∨ r.state = .hold ∨ r.state = .trial then 1 else 0 } := by
  unfold LinkRecord.accrue LinkState.fading
  split <;> split <;> simp_all

/-- Settles O2: a tick is one advance, and what it appends is what the clocks then make due. -/
theorem emptyQueueTicksTheClocks : Obligations.EmptyQueueTicksTheClocks := by
  intro s hempty
  refine ⟨fun hheld => ?_, fun hrun => ⟨s.tick, step_of_pending_nil hempty, ?_⟩⟩
  · rw [step_of_pending_nil hempty, State.tick, if_pos hheld]
  · rw [State.tick_running hrun]
    refine ⟨rfl, rfl, fun p => ?_, rfl, fun c => ?_⟩
    · exact (s.advance_link 1 p).trans (LinkRecord.accrue_one _)
    · simp only [hempty, List.nil_append, State.mem_due, State.mem_dueOn, TimeUnit.scheduleDue_iff]
      rfl

/-! ### The front command and the resets -/

/-- Settles O1: a step on a queue with a front. -/
theorem stepRunsFrontCommand : Obligations.StepRunsFrontCommand := by
  intro c rest s h
  simp only [step, h]

/-- Settles O4: POWER_ON's next state is the reset state, but for what the chip does not own. -/
theorem powerOnReturnsEveryBlockToReset : Obligations.PowerOnReturnsEveryBlockToReset := by
  intro s
  show execPowerOn s = _
  simp only [execPowerOn, Bool.or_eq_true]
  rfl

/-- Settles O5: the reset state, block by block. -/
theorem resetHoldsPowerOnValues : Obligations.ResetHoldsPowerOnValues := by
  refine ⟨?_, ⟨rfl, rfl, rfl, rfl⟩, ⟨rfl, rfl, rfl, rfl, rfl, rfl, rfl⟩, rfl, ?_, ⟨rfl, rfl⟩,
    ⟨rfl, by decide, rfl, ?_⟩, by decide, ⟨rfl, rfl, rfl, rfl⟩, ⟨rfl, rfl⟩, ?_, ?_, ?_, rfl⟩
  · rintro (_ | _ | _ | _ | _) <;> decide
  · rintro (_ | _ | _ | _ | _) <;> decide
  · rintro (_ | _ | _ | _ | _) <;> rfl
  · decide
  · rintro (⟨p, c⟩ | c)
    · cases p <;> cases c <;> rfl
    · cases c <;> rfl
  · rintro (_ | _) <;> rfl

/-- Settles O6: the release acts only while the pin is asserted. -/
theorem resetReleaseSamplesDeviceCode : Obligations.ResetReleaseSamplesDeviceCode := by
  intro dc s
  show (_ → execPowerOnResetRelease dc s = _) ∧ (_ → execPowerOnResetRelease dc s = _)
  constructor <;> intro h <;> simp [execPowerOnResetRelease, h]

end Sys2Proof.Machine

/-! Arrivals and the Arrival Filter: how a frame's reception begins and ends (chapter 1), and which slot an origin is
judged by (chapter 6). -/

namespace Sys2Proof.Machine

/-! ### Receptions -/

theorem State.follows_iff (s : State) (p : Port) :
    s.follows p = true ↔ s.inService = true ∧ (s.link p).enabled = true :=
  Bool.and_eq_true_iff

theorem execArrivalStart_of_discarded {s : State} {p : Port}
    (h : s.inService = false ∨ (s.link p).enabled = false ∨ s.rx p ≠ .idle) (cls : Byte) :
    execArrivalStart p cls s = .next s := by
  rw [execArrivalStart, if_neg]
  rw [Bool.and_eq_true, State.follows_iff, decide_eq_true_iff]
  rintro ⟨⟨hservice, henabled⟩, hidle⟩
  rcases h with h | h | h
  · exact Bool.false_ne_true (h.symm.trans hservice)
  · exact Bool.false_ne_true (h.symm.trans henabled)
  · exact h hidle

theorem execArrivalStart_of_followed {s : State} {p : Port} (hservice : s.inService = true)
    (henabled : (s.link p).enabled = true) (hidle : s.rx p = .idle) (cls : Byte) :
    execArrivalStart p cls s = .next (if cls = 1 then s.beginTraffic p
      else if cls = 2 then s.setRx p (.hail s.now) else s.setRx p .unknownClass) := by
  rw [execArrivalStart, if_pos]
  rotate_left
  · rw [Bool.and_eq_true, State.follows_iff, decide_eq_true_iff]
    exact ⟨⟨hservice, henabled⟩, hidle⟩
  · rfl

theorem Forwarding.freeBuffers_grant {f f' : Forwarding} (h : f'.pool.length = f.pool.length + 1)
    (hroom : f.pool.length < 256) : f'.freeBuffers + 1 = f.freeBuffers := by
  unfold Forwarding.freeBuffers Config.poolSize
  omega

theorem usedPorts_line (p q : Port) : (Origin.line p).usedPorts.get q = decide (q = p) := by
  cases p <;> cases q <;> rfl

/-- Settles O7: by what the port takes, the class, and the pool. -/
theorem arrivalStartClaimsBufferOrStore : Obligations.ArrivalStartClaimsBufferOrStore := by
  intro p cls s
  show (_ → execArrivalStart p cls s = _) ∧ (_ → _ → _ → (_ → execArrivalStart p cls s = _)
    ∧ (_ → _ → execArrivalStart p cls s = _) ∧ (_ → _ → execArrivalStart p cls s = _)
    ∧ (_ → _ → _ → ∃ i fe b, execArrivalStart p cls s = _ ∧ _))
  refine ⟨fun h => execArrivalStart_of_discarded h cls, fun hservice henabled hidle => ?_⟩
  rw [execArrivalStart_of_followed hservice henabled hidle]
  refine ⟨?_, fun h1 h2 => ?_, ?_, ?_⟩
  · rintro rfl
    rfl
  · rw [if_neg h1, if_neg h2]
  · rintro rfl hfull
    have hgrant : s.fe.grant s.tu.stamp (.line p) .blank [] = none := if_neg (Nat.not_lt.2 hfull)
    rw [if_pos rfl, State.beginTraffic, hgrant]
  · rintro rfl hroom hwf
    rw [if_pos rfl, State.beginTraffic]
    have hspec := Forwarding.grant_spec hwf s.tu.stamp (.line p) .blank []
    cases hgrant : s.fe.grant s.tu.stamp (.line p) .blank [] with
    | none => exact absurd (hspec.1.1 hgrant) (Nat.not_le.2 hroom)
    | some g =>
      obtain ⟨i, fe⟩ := g
      obtain ⟨-, -, hwf', hqueues, hlength, -⟩ := hspec.2 i fe hgrant
      obtain ⟨hfree, hnew, hother⟩ := Forwarding.grant_buffer? hwf hgrant
      exact ⟨i, fe, _, rfl, hfree, hnew, hqueues, hwf', Forwarding.freeBuffers_grant hlength hroom, rfl, rfl, rfl,
        usedPorts_line p, hother⟩

/-- Settles O9: by the reception that the end of the frame closes. -/
theorem unacceptedFrameLeavesOnlyItsCount : Obligations.UnacceptedFrameLeavesOnlyItsCount := by
  intro p f s
  refine ⟨fun i hrx hbad => ?_, fun hrx => ?_, fun hrx => ?_, fun i hrx => ?_, fun a hrx hbad => ?_, fun hrx => ?_,
    fun hrx => ?_⟩
  · show execTrafficArrivalCompletion p f s = _
    simp only [execTrafficArrivalCompletion, hrx, State.endTraffic, hbad]
  · show execTrafficArrivalCompletion p f s = _
    simp only [execTrafficArrivalCompletion, hrx]
  · show execTrafficArrivalCompletion p f s = _
    rcases hrx with hrx | hrx <;> simp only [execTrafficArrivalCompletion, hrx]
  · show execTrafficArrivalCompletion p f s = _
    simp only [execTrafficArrivalCompletion, hrx]
  · show execHailArrivalCompletion p f s = _
    simp only [execHailArrivalCompletion, hrx, hbad]
  · show execHailArrivalCompletion p f s = _
    simp only [execHailArrivalCompletion, hrx]
  · have htraffic : execTrafficArrivalCompletion p f s = .next s := by simp only [execTrafficArrivalCompletion, hrx]
    have hhail : execHailArrivalCompletion p f s = .next s := by simp only [execHailArrivalCompletion, hrx]
    exact ⟨htraffic, hhail, fun h cls => ⟨s, execArrivalStart_of_discarded (h.imp_right .inl) cls, htraffic, hhail⟩⟩

/-! ### The start-number test -/

/-- Settles O12: the three arcs of the circle of start numbers. -/
theorem startNumberTestComparesOnTheCircle : Obligations.StartNumberTestComparesOnTheCircle := by
  intro t n q now
  refine ⟨fun h => ?_, fun h1 h2 => ?_, fun h => ?_⟩ <;> rw [Slot.test]
  · rw [if_pos h]
  · rw [if_neg (by omega), if_pos (by omega)]
    rfl
  · rw [if_neg (by omega), if_neg (by omega)]

/-! ### The slot of an origin -/

/-- A slot idle for no longer than the best found so far does not take its place. -/
theorem longestIdle_of_le {now : Time} {best : Nat × Nat} : ∀ {l : List (Option Slot)} {k : Nat},
    (∀ t ∈ l, idleTime now t ≤ best.2) → longestIdle now l k best = best
  | [], _, _ => rfl
  | t :: l, k, h => by
    rw [longestIdle, if_neg (Nat.not_lt.2 (h t (by simp)))]
    exact longestIdle_of_le fun x hx => h x (by simp [hx])

/-- The first of the longest idle slots, if idle for longer than the best found so far, is what the search finds. -/
theorem longestIdle_of_lt {now : Time} : ∀ {l : List (Option Slot)} {k : Nat} {best : Nat × Nat} {j : Nat}
    {hj : j < l.length}, best.2 < idleTime now l[j] → (∀ (m : Nat) (hm : m < j), idleTime now l[m] < idleTime now l[j])
    → (∀ t ∈ l, idleTime now t ≤ idleTime now l[j]) → longestIdle now l k best = (k + j, idleTime now l[j])
  | t :: l, k, best, 0, _, hbest, _, hmax => by
    rw [longestIdle]
    simp only [List.getElem_cons_zero] at hbest hmax ⊢
    rw [if_pos hbest]
    exact longestIdle_of_le fun x hx => hmax x (by simp [hx])
  | t :: l, k, best, j + 1, hj, hbest, hfirst, hmax => by
    have hhead : idleTime now t < idleTime now (t :: l)[j + 1] := hfirst 0 (Nat.succ_pos j)
    rw [List.getElem_cons_succ] at hhead
    rw [longestIdle, longestIdle_of_lt (j := j) (hj := Nat.lt_of_succ_lt_succ hj)]
    · simp [Nat.add_right_comm, Nat.add_assoc]
    · split
      · exact hhead
      · exact hbest
    · exact fun m hm => hfirst (m + 1) (Nat.succ_lt_succ hm)
    · exact fun x hx => hmax x (by simp [hx])

/-- With no free slot, the first of the longest idle ones is taken if it has been idle long enough (R103). -/
theorem slotFor_of_full {now : Time} {l : List (Option Slot)} (limit : Nat) {i : Nat} (hi : i < l.length)
    (hfull : l.findIdx? Option.isNone = none) (hmax : ∀ t ∈ l, idleTime now t ≤ idleTime now l[i])
    (hfirst : ∀ (m : Nat) (hm : m < i), idleTime now l[m] < idleTime now l[i]) :
    slotFor l limit now = if limit ≤ idleTime now l[i] then some i else none := by
  rw [slotFor.eq_def, hfull]
  match l, i, hi, hmax, hfirst with
  | t :: rest, 0, _, hmax, _ =>
    simp only [List.getElem_cons_zero] at hmax ⊢
    rw [longestIdle_of_le fun x hx => hmax x (by simp [hx])]
  | t :: rest, j + 1, hj, hmax, hfirst =>
    have hhead : idleTime now t < idleTime now (t :: rest)[j + 1] := hfirst 0 (Nat.succ_pos j)
    rw [List.getElem_cons_succ] at hhead
    simp only [List.getElem_cons_succ] at hmax hfirst ⊢
    rw [longestIdle_of_lt (j := j) (hj := Nat.lt_of_succ_lt_succ hj) hhead
      (fun m hm => hfirst (m + 1) (Nat.succ_lt_succ hm)) fun x hx => hmax x (by simp [hx])]
    rw [Nat.add_comm 1 j]

theorem slotFor_of_free {now : Time} {l : List (Option Slot)} (limit : Nat) {i : Nat} (hi : i < l.length)
    (hnone : l[i] = none) (hfirst : ∀ (m : Nat) (hm : m < i), l[m] ≠ none) : slotFor l limit now = some i := by
  have hfind : l.findIdx? Option.isNone = some i := by
    rw [List.findIdx?_eq_some_iff_getElem]
    exact ⟨hi, by simp [hnone], fun m hm => by simpa using hfirst m hm⟩
  rw [slotFor.eq_def, hfind]

theorem Vector.setIfInBounds_eq_set {α : Type} {n : Nat} (v : Vector α n) (i : Fin n) (x : α) :
    v.setIfInBounds i.val x = v.set i.val x := by
  simp [Vector.setIfInBounds, Vector.set, Array.setIfInBounds]

theorem judge_of_new {own limit : Nat} {now : Time} {slots : Vector (Option Slot) 15} {o : Nat} (n : Byte)
    (q : BitVec 16) (ho : o ≠ own) (hnew : ∀ t ∈ slots.toList.filterMap id, t.origin ≠ o) :
    judge own limit now slots o n q = (slotFor slots.toList limit now).elim ⟨.noSlot, slots, false⟩
      fun i => ⟨.first, slots.setIfInBounds i (some (.fresh o n q now)), false⟩ := by
  have hfind : slots.toList.findIdx? (holdsOrigin o) = none := by
    rw [List.findIdx?_eq_none_iff]
    rintro (_ | t) ht
    · rfl
    · exact decide_eq_false (hnew t (by simpa using ht))
  rw [judge, if_neg ho, hfind]
  cases slotFor slots.toList limit now <;> rfl

theorem judge_of_held {own limit : Nat} {now : Time} {slots : Vector (Option Slot) 15} {o : Nat} (n : Byte)
    (q : BitVec 16) (ho : o ≠ own) {i : Fin 15} {t : Slot} (ht : slots.get i = some t) (hto : t.origin = o)
    (hfirst : ∀ k : Fin 15, k < i → ∀ x, slots.get k = some x → x.origin ≠ o) :
    judge own limit now slots o n q
      = ⟨(t.test n q now).1, slots.setIfInBounds i (some (t.test n q now).2.1), (t.test n q now).2.2⟩ := by
  have hget (k : Nat) (hk : k < slots.toList.length) : slots.toList[k] = slots.get ⟨k, by simpa using hk⟩ := by
    rw [Vector.getElem_toList]
    rfl
  have hfind : slots.toList.findIdx? (holdsOrigin o) = some i.val := by
    rw [List.findIdx?_eq_some_iff_getElem]
    refine ⟨by simp, ?_, fun m hm => ?_⟩
    · rw [hget, ht]
      exact decide_eq_true hto
    · rw [hget]
      cases hx : slots.get ⟨m, by omega⟩ with
      | none => exact Bool.false_ne_true
      | some x => simpa [holdsOrigin] using hfirst ⟨m, by omega⟩ hm x hx
  have hgetD : slots.toList.getD i.val none = some t := by
    rw [List.getD_eq_getElem?_getD, List.getElem?_eq_getElem (by simp), hget, ht]
    rfl
  rw [judge, if_neg ho, hfind]
  simp only [hgetD]

/-- Settles O13: the origin's own slot, the lowest free one, or the first of the longest idle. -/
theorem newOriginTakesFreeOrIdleSlot : Obligations.NewOriginTakesFreeOrIdleSlot := by
  intro own idle now slots o n q
  have hget (k : Nat) (hk : k < slots.toList.length) : slots.toList[k] = slots.get ⟨k, by simpa using hk⟩ := by
    rw [Vector.getElem_toList]
    rfl
  refine ⟨fun ho => by rw [judge, if_pos ho], fun t => rfl, fun i t ho ht hto hfirst => ?_, fun ho hnew => ⟨?_, ?_⟩⟩
  · rw [judge_of_held n q ho ht hto hfirst, Vector.setIfInBounds_eq_set]
  · intro i hi hfirst
    have hslot : slotFor slots.toList idle now = some i.val :=
      slotFor_of_free idle (by simp) (by rw [hget]; exact hi) fun m hm => by
        rw [hget]
        exact hfirst ⟨m, by omega⟩ hm
    rw [judge_of_new n q ho hnew, hslot, Option.elim_some, Vector.setIfInBounds_eq_set]
    rfl
  · intro hfull i hmax hfirst
    have hslot : slotFor slots.toList idle now = if idle ≤ idleTime now (slots.get i) then some i.val else none := by
      rw [slotFor_of_full idle (i := i.val) (by simp) ?_ ?_ ?_, hget]
      · rw [List.findIdx?_eq_none_iff]
        intro x hx
        obtain ⟨k, hk, rfl⟩ := List.mem_iff_getElem.1 hx
        rw [hget]
        exact Option.isNone_eq_false_iff.2 (Option.isSome_iff_ne_none.2 (hfull _))
      · intro x hx
        obtain ⟨k, hk, rfl⟩ := List.mem_iff_getElem.1 hx
        rw [hget, hget]
        exact hmax _
      · intro m hm
        rw [hget, hget]
        exact hfirst ⟨m, by omega⟩ hm
    rw [judge_of_new n q ho hnew, hslot]
    refine ⟨fun h => ?_, fun h => ?_⟩
    · rw [if_pos h, Option.elim_some, Vector.setIfInBounds_eq_set]
      rfl
    · rw [if_neg (Nat.not_le.2 h), Option.elim_none]

end Sys2Proof.Machine

/-! Copies, queues and departures: the copy rules, placement, selection and flush, each by its cases (chapter 7). -/

namespace Sys2Proof.Machine

/-! ### Copy sets -/

theorem State.radioUsable_iff (s : State) :
    s.radioUsable = false ↔ ∀ q, q ≠ .p4 → (s.link q).state.usable = false := by
  simp only [State.radioUsable, List.any_eq_false, List.mem_cons, List.not_mem_nil, or_false, Bool.not_eq_true]
  refine ⟨fun h q hq => h q ?_, fun h q hq => h q ?_⟩
  · revert hq
    cases q <;> decide
  · rcases hq with rfl | rfl | rfl | rfl <;> decide

theorem Image.fibre_always_iff (g : Image) : g.fibre = .always ↔ g.fibreFlood = 1 := by
  rw [Image.fibre, ← BitVec.toNat_inj]
  change _ ↔ _ = 1
  split <;> simp_all

theorem Image.fibre_whenRadioLost_iff (g : Image) : g.fibre = .whenRadioLost ↔ g.fibreFlood = 2 := by
  rw [Image.fibre, ← BitVec.toNat_inj]
  change _ ↔ _ = 2
  split <;> simp_all

theorem State.floodCandidate_fibre (s : State) : s.floodCandidate .p4 = true ↔ (s.link .p4).state.usable = true
    ∧ (s.image.fibreFlood = 1 ∨ s.image.fibreFlood = 2 ∧ ∀ q, q ≠ .p4 → (s.link q).state.usable = false) := by
  rw [← Image.fibre_always_iff, ← Image.fibre_whenRadioLost_iff, ← State.radioUsable_iff]
  simp only [State.floodCandidate, fibrePort, decide_true, if_true, Bool.and_eq_true]
  cases s.image.fibre <;> simp

theorem State.floodCandidate_radio (s : State) {p : Port} (hp : p ≠ .p4) :
    s.floodCandidate p = true ↔ (s.link p).state.usable = true ∧ s.image.floodMask.getLsbD p.toNat = true := by
  simp [State.floodCandidate, fibrePort, hp, Image.floods]

theorem State.neighbourStation_ne_iff (s : State) (p : Port) (o : Nat) :
    s.neighbourStation p ≠ some o ↔ ∀ n, (s.link p).neighbour = some n → n.1 ≠ o := by
  cases h : (s.link p).neighbour <;> simp [State.neighbourStation, h]

/-- Settles O14: membership by the conditions of R120; the order is that of the ports. -/
theorem floodCopySetHoldsTheCandidates : Obligations.FloodCopySetHoldsTheCandidates := by
  intro s a o
  refine ⟨Port.all_ascending.filter _, fun p => ?_⟩
  simp only [State.floodPorts, List.mem_filter, Port.mem_all, true_and, Bool.and_eq_true, decide_eq_true_iff,
    State.neighbourStation_ne_iff, ← LinkState.usable_iff]
  by_cases hp : p = .p4
  · subst hp
    simp only [State.floodCandidate_fibre, ne_eq, not_true_eq_false, false_and, true_and, false_or, and_assoc]
  · simp only [State.floodCandidate_radio s hp, ne_eq, hp, not_false_iff, true_and, false_and, or_false, and_assoc]

theorem State.pairPort_eq_some_iff (s : State) (e : CostEntry) (a : Origin) (c : Port) (u : Urgency) (x : Port) :
    s.pairPort e a c u = some x ↔ e.second = some x ∧ s.image.pairClass.toNat ≤ u.toNat ∧ a ≠ .line x ∧ x ≠ c
      ∧ e.secondCost ≤ e.own + s.image.pairWindow.toNat := by
  cases h : e.second with
  | none => simp [State.pairPort, h]
  | some p =>
    simp only [State.pairPort, h, Option.ite_none_right_eq_some, Option.some.injEq]
    constructor
    · rintro ⟨hpair, rfl⟩
      exact ⟨rfl, hpair⟩
    · rintro ⟨rfl, hpair⟩
      exact ⟨hpair, rfl⟩

/-- Settles O15: by the target, its entry, and the entry's best and second port. -/
theorem aimedChoiceFollowsTheCostTable : Obligations.AimedChoiceFollowsTheCostTable := by
  intro s a t u
  refine ⟨fun ht => ?_, fun ht he => ?_, fun e ht he => ⟨fun hb => ?_, fun b hb ha hsecond => ?_, fun b c hb hc =>
    ⟨s.pairPort e a c u, ?_, s.pairPort_eq_some_iff e a c u⟩⟩⟩
  · rw [State.aimedChoice, if_pos ht, Image.isEnd]
    cases s.image.roleOf <;> rfl
  · rw [State.aimedChoice, if_neg ht, he]
  · simp only [State.aimedChoice, if_neg ht, he, hb]
  · simp only [State.aimedChoice, if_neg ht, he, hb, if_pos ha, hsecond]
  · rcases hc with ⟨ha, rfl⟩ | ⟨ha, hsecond⟩
    · simp only [State.aimedChoice, if_neg ht, he, hb, if_neg ha]
    · simp only [State.aimedChoice, if_neg ht, he, hb, if_pos ha, hsecond]

/-! ### Placement -/

theorem select_queue_of_ne (s : State) {p q : Port} (h : q ≠ p) : (s.select p).queue q = s.queue q :=
  select_induct (P := fun t => t.queue q = s.queue q)
    (fun _ ht _ _ => ht)
    (fun t _ x ht _ _ => (State.setQueue_queue_of_ne t x h).trans ht)
    (fun t _ x _ ht _ _ => (State.setQueue_queue_of_ne t x h).trans ht)
    (fun t _ x _ ht _ _ _ _ => (State.setQueue_queue_of_ne t x h).trans ht) rfl

theorem place_of_room {s : State} {i : Nat} {u : Urgency} {p : Port} (h : (s.queue p).size < 64) :
    s.place i u p = ((s.joined i u p).select p, true) := if_pos h

theorem place_of_full {s : State} {i : Nat} {u : Urgency} {p : Port} (h : 64 ≤ (s.queue p).size) :
    s.place i u p = (s.count (.port p .queueDrop), false) := if_neg (Nat.not_lt.2 h)

theorem place_placed (s : State) (i : Nat) (u : Urgency) (p : Port) :
    (s.place i u p).2 = decide ((s.queue p).size < 64) := by
  rcases Nat.lt_or_ge (s.queue p).size 64 with h | h
  · rw [place_of_room h, decide_eq_true h]
  · rw [place_of_full h, decide_eq_false (Nat.not_lt.2 h)]

theorem place_queue_of_ne (s : State) (i : Nat) (u : Urgency) {p q : Port} (h : q ≠ p) :
    (s.place i u p).1.queue q = s.queue q := by
  rcases Nat.lt_or_ge (s.queue p).size 64 with hs | hs
  · rw [place_of_room hs]
    exact (select_queue_of_ne _ h).trans (State.setQueue_queue_of_ne _ _ h)
  · rw [place_of_full hs]
    rfl

theorem placeCopies_state (i : Nat) (u : Urgency) : ∀ (ports : List Port) (s : State),
    (placeCopies i u ports s).1 = ports.foldl (fun t p => (t.place i u p).1) s
  | [], _ => rfl
  | p :: ps, s => placeCopies_state i u ps (s.place i u p).1

/-- No placement changes the room of another port, so each of different ports is counted by the room it had. -/
theorem placeCopies_placed (i : Nat) (u : Urgency) : ∀ (ports : List Port) (s : State), ports.Nodup →
    (placeCopies i u ports s).2 = (ports.filter (fun p => decide ((s.queue p).size < 64))).length
  | [], _, _ => rfl
  | p :: ps, s, h => by
    obtain ⟨hp, hps⟩ := List.nodup_cons.1 h
    have hrest : ps.filter (fun q => decide (((s.place i u p).1.queue q).size < 64))
        = ps.filter (fun q => decide ((s.queue q).size < 64)) :=
      List.filter_congr fun q hq => by
        have hne : q ≠ p := fun e => hp (e ▸ hq)
        rw [place_queue_of_ne s i u hne]
    have hcount : (placeCopies i u (p :: ps) s).2
        = (placeCopies i u ps (s.place i u p).1).2 + if (s.place i u p).2 then 1 else 0 := rfl
    rw [hcount, placeCopies_placed i u ps _ hps, hrest, place_placed, List.filter_cons]
    split <;> rfl

theorem State.floodOwed_iff (s : State) (a : Origin) (o : Nat) : s.floodOwed a o = true ↔ a ≠ .loc
    ∧ (s.image.roleOf = .floor ∨ s.image.roleOf = .source ∧ s.image.crossFeed ≠ 0 ∧ o ≠ s.image.number) := by
  rw [State.floodOwed, Bool.and_eq_true, decide_eq_true_iff]
  cases s.image.roleOf <;> simp [Image.crossFeeds]

theorem makeCopies_flood {s : State} {b : Buffer} (hk : b.header.kind = .flood) :
    s.makeCopies b = if s.floodOwed b.arrival b.header.origin = true
      then ((s.egressCopies b (s.floodPorts b.arrival b.header.origin)).1.placeLocal b.id,
        (s.egressCopies b (s.floodPorts b.arrival b.header.origin)).2)
      else s.egressCopies b (s.floodPorts b.arrival b.header.origin) := by
  simp only [State.makeCopies, hk]

/-- Settles O16: placement by the room of the queue; the copies of a message by kind and choice. -/
theorem copyJoinsItsClassOrIsDropped : Obligations.CopyJoinsItsClassOrIsDropped := by
  refine ⟨fun s i u p => ⟨place_of_room, place_of_full⟩, fun s b ports => ⟨fun hb p ha => ?_, fun hb => ?_⟩,
    fun s i u ports => ⟨placeCopies_state i u ports s, placeCopies_placed i u ports s⟩,
    fun s i => ⟨fun h => if_pos h, fun h => if_neg (Nat.not_lt.2 h)⟩,
    fun s b => ⟨fun hk howed => ?_, fun hk howed => ?_, fun hk hc => ?_, fun hk hc => ?_, fun c hk hc => ?_,
      fun c x hk hc => ?_⟩⟩
  · rw [State.egressCopies, if_pos hb, ha]
    rfl
  · rw [State.egressCopies, if_neg (Nat.ne_of_gt hb)]
  · rw [makeCopies_flood hk, if_pos ((s.floodOwed_iff _ _).2 howed)]
  · rw [makeCopies_flood hk, if_neg fun h => howed ((s.floodOwed_iff _ _).1 h)]
  all_goals simp only [State.makeCopies, hk, hc, ascendingPair]

/-! ### Selection and departures -/

theorem select_of_busy {s : State} {p : Port} (h : s.tx p ≠ .idle) : s.select p = s := if_neg h

theorem select_of_hailDue {s : State} {p : Port} (hidle : s.tx p = .idle) (hdue : (s.link p).hailDue = true) :
    s.select p = s.departHail p := by
  rw [State.select, if_pos hidle, selectFrom, if_pos hdue]

theorem pop?_of_klass {q : EgressQueue} {u : Urgency} {i : Nat} {l : List Nat} (h : q.klass u = i :: l)
    (hlow : ∀ w, u.toNat < w.toNat → q.klass w = []) : q.pop? = some (i, q.setClass u l) := by
  have h1 : u.toNat < 1 → q.c1 = [] := hlow .u1
  have h2 : u.toNat < 2 → q.c2 = [] := hlow .u2
  have h3 : u.toNat < 3 → q.c3 = [] := hlow .u3
  obtain ⟨c3, c2, c1, c0⟩ := q
  cases u <;> simp only [EgressQueue.klass] at h h1 h2 h3
  · obtain rfl := h1 (by decide)
    obtain rfl := h2 (by decide)
    obtain rfl := h3 (by decide)
    rw [h]
    rfl
  · obtain rfl := h2 (by decide)
    obtain rfl := h3 (by decide)
    rw [h]
    rfl
  · obtain rfl := h3 (by decide)
    rw [h]
    rfl
  · rw [h]
    rfl

/-- One round of selection on a waiting entry. -/
theorem select_of_head {s : State} {p : Port} {i : Nat} {q : EgressQueue} {b : Buffer} (hidle : s.tx p = .idle)
    (hdue : (s.link p).hailDue = false) (hpop : (s.queue p).pop? = some (i, q)) (hb : s.fe.buffer? i = some b) :
    s.select p = if s.image.ageNs < b.age s.now then
      (((s.setQueue p q).release i).count (.port p .ageDrop)).select p else (s.setQueue p q).departTraffic p b := by
  have hb' : (s.setQueue p q).fe.buffer? i = some b := hb
  have hidle' : (((s.setQueue p q).release i).count (.port p .ageDrop)).tx p = .idle := hidle
  have hsize : ((((s.setQueue p q).release i).count (.port p .ageDrop)).queue p).size + 1 = (s.queue p).size := by
    have hqueue : (((s.setQueue p q).release i).count (.port p .ageDrop)).queue p = q :=
      State.setQueue_queue_self s p q
    rw [hqueue, EgressQueue.size_pop? hpop]
  rw [State.select, if_pos hidle, selectFrom, if_neg (by simp [hdue]), hpop]
  simp only [hb']
  rw [State.select, if_pos hidle', hsize]

/-- Settles O17: a due HAIL, nothing, or the head of the highest class by its age. -/
theorem selectionServesHailThenHighestClass : Obligations.SelectionServesHailThenHighestClass := by
  intro s p
  refine ⟨select_of_busy, fun hidle => ⟨select_of_hailDue hidle, fun hdue hq => ?_, fun u i l b hdue hk hlow hb => ?_⟩⟩
  · exact select_of_nothing_waiting hdue (by rw [hq])
  · have hselect := select_of_head hidle hdue (pop?_of_klass hk hlow) hb
    refine ⟨fun hage => ?_, fun hage => ?_⟩
    · rw [hselect]
      exact if_neg (Nat.not_lt.2 hage)
    · rw [hselect]
      exact if_pos hage

/-- Settles O18: by whether the sum passes the limit. -/
theorem routeDelaySaturatesAndNeverFalls : Obligations.RouteDelaySaturatesAndNeverFalls := by
  intro h d
  have hlow : h.routeDelay + d ≤ 4294967295 → h.addDelay d = { h with routeDelay := h.routeDelay + d } :=
    fun hle => if_neg (Nat.not_lt.2 hle)
  have hhigh : 4294967295 < h.routeDelay + d → h.addDelay d = { h with routeDelay := 4294967295, inexact := true } :=
    fun hlt => if_pos hlt
  rcases Nat.lt_or_ge 4294967295 (h.routeDelay + d) with hd | hd
  · refine ⟨hlow, hhigh, fun _ => ?_, fun _ => ?_⟩ <;> rw [hhigh hd]
    exact ⟨‹_›, Nat.le_refl _⟩
  · refine ⟨hlow, hhigh, fun _ => ?_, fun _ => ?_⟩ <;> rw [hlow hd]
    · exact ⟨Nat.le_add_right _ _, hd⟩
    · assumption

/-- Settles O19: by the transmission that ends. -/
theorem departureCompletionCountsAndSelectsAgain : Obligations.DepartureCompletionCountsAndSelectsAgain := by
  intro p s
  have harm : exec (.departureCompletion p) s = execDepartureCompletion p s := rfl
  simp only [harm, execDepartureCompletion]
  refine ⟨fun h => by rw [h], fun x h => by rw [h], fun i x h => by rw [h], fun i x h hdue hq => ?_⟩
  rw [h]
  refine congrArg Host.Outcome.next (select_of_nothing_waiting hdue ?_)
  have hqueue : ((((s.count (.port p .txTraffic)).release i).setTx p .idle).queue p) = s.queue p := rfl
  rw [hqueue, hq]

/-! ### Flush and re-aim -/

theorem reaimPort_eq_some {s : State} {b : Buffer} {e : CostEntry} {r : Port}
    (he : s.rc.entry? b.header.target = some e) (hr : b.used.get r = false)
    (hchoice : e.best = some r ∨ e.second = some r ∧ ∀ x, e.best = some x → b.used.get x = true) :
    s.reaimPort b = some r := by
  simp only [State.reaimPort, he, List.findSome?_cons, List.findSome?_nil]
  rcases hchoice with hbest | ⟨hsecond, hused⟩
  · simp [hbest, hr]
  · cases hbest : e.best with
    | none => simp [hsecond, hr]
    | some x => simp [hsecond, hr, hused x hbest]

theorem reaimPort_eq_none {s : State} {b : Buffer} {e : CostEntry} (he : s.rc.entry? b.header.target = some e)
    (hused : ∀ x, e.best = some x ∨ e.second = some x → b.used.get x = true) : s.reaimPort b = none := by
  simp only [State.reaimPort, he, List.findSome?_cons, List.findSome?_nil]
  cases hbest : e.best <;> cases hsecond : e.second <;> simp_all

theorem flushEntry_flushed {p : Port} {s : State} {u : Urgency} {i : Nat} {b : Buffer} (hb : s.fe.buffer? i = some b)
    (h : b.header.kind = .flood ∨ s.reaimPort b = none) :
    State.flushEntry p s (u, i) = (s.release i).count (.port p .flushed) := by
  have hid := Forwarding.id_of_buffer? hb
  simp only [State.flushEntry, hb, hid]
  cases hk : b.header.kind with
  | flood => rfl
  | aimed =>
    rw [h.resolve_left (by simp [hk])]

theorem flushEntry_aimed {p : Port} {s : State} {u : Urgency} {i : Nat} {b : Buffer} {r : Port}
    (hb : s.fe.buffer? i = some b) (hk : b.header.kind = .aimed) (hr : s.reaimPort b = some r) :
    State.flushEntry p s (u, i) = if (s.queue r).size < 64 then ((s.rejoined i u r).count (.port p .reaimed)).select r
      else (s.release i).count (.port r .queueDrop) := by
  have hid := Forwarding.id_of_buffer? hb
  simp only [State.flushEntry, hb, hid, hk, hr]
  rfl

/-- Settles O20: by the kind, the entry of the target, and the port it gives. -/
theorem flushedPortReaimsItsEntries : Obligations.FlushedPortReaimsItsEntries := by
  refine ⟨fun s p => rfl, fun s p u i b hb => ⟨fun hk => ?_, fun hk he => ?_, fun e hk he => ⟨fun hused => ?_,
    fun r hr hchoice => ⟨fun hroom => ?_, fun hfull => ?_⟩⟩⟩⟩
  · exact flushEntry_flushed hb (.inl hk)
  · exact flushEntry_flushed hb (.inr (by simp only [State.reaimPort, he]))
  · exact flushEntry_flushed hb (.inr (reaimPort_eq_none he hused))
  · rw [flushEntry_aimed hb hk (reaimPort_eq_some he hr hchoice), if_pos hroom]
    rfl
  · rw [flushEntry_aimed hb hk (reaimPort_eq_some he hr hchoice), if_neg (Nat.not_lt.2 hfull)]

/-! ### HAILs that depart -/

theorem buildHail_setLink (s : State) (p : Port) {r : LinkRecord} (hnear : r.near = (s.link p).near)
    (hstate : r.state = (s.link p).state) (hlast : r.lastHail = (s.link p).lastHail) (n : Byte) :
    (s.setLink p r).buildHail p n = s.buildHail p n := by
  simp only [State.buildHail, State.setLink_link_self, hnear, hstate, hlast]
  rfl

theorem departHail_setLink {s : State} {p : Port} (r : LinkRecord) (hnear : r.near = (s.link p).near)
    (hstate : r.state = (s.link p).state) (hlast : r.lastHail = (s.link p).lastHail) :
    (s.setLink p r).departHail p = (s.setTx p (.hail (s.buildHail p (r.lastSent + 1)))).setLink p
      { r with hailDue := false, lastSent := r.lastSent + 1 } := by
  simp only [State.departHail, State.setLink_link_self, buildHail_setLink s p hnear hstate hlast]
  simp only [State.setLink, State.setTx, PerPort.set_set]

/-- Settles O24: by the hail timer and the port's transmission. -/
theorem hailTimerExpiryMakesAHailDue : Obligations.HailTimerExpiryMakesAHailDue := by
  intro p s
  show (_ → execHailTimerExpiry p s = _) ∧ ∀ x, _ → _ → (_ → execHailTimerExpiry p s = _)
    ∧ (_ → execHailTimerExpiry p s = _)
  refine ⟨fun h => ?_, fun x hx hdue => ?_⟩
  · simp only [execHailTimerExpiry]
    rw [if_neg]
    rw [LinkRecord.hailExpired_iff]
    rintro ⟨x, hx, hd⟩
    exact Nat.not_lt.2 hd (h x hx)
  · simp only [execHailTimerExpiry]
    rw [if_pos ((LinkRecord.hailExpired_iff _ _ _).2 ⟨x, hx, hdue⟩), hx]
    refine ⟨fun hbusy => congrArg _ (select_of_busy hbusy), fun hidle => congrArg _ ?_⟩
    have hsent := select_of_hailDue (s := s.setLink p { s.link p with
      hailTimer := some (x + BitVec.ofNat 48 s.image.hailNs), hailDue := true }) (p := p) hidle
      (by rw [State.setLink_link_self])
    exact hsent.trans (departHail_setLink _ rfl rfl rfl)

/-- Settles O25: the HAIL that `buildHail` gives, field by field. -/
theorem builtHailCarriesTheRecord : Obligations.BuiltHailCarriesTheRecord := by
  intro s p n
  have hvector : (s.buildHail p n).vector = s.rc.advertise s.image p := rfl
  have hfar : (s.buildHail p n).farMargin = if fibrePort p then 127 else (s.link p).near.getD (-128) := rfl
  refine ⟨⟨rfl, rfl, rfl, rfl, rfl, rfl⟩, fun hp => ?_, fun hp => ⟨fun hnear => ?_, fun m hnear => ?_⟩, fun hlast => ?_,
    fun l hlast => ?_, ?_, fun i e d c he hc => ?_, rfl, rfl⟩
  · rw [hfar, hp]
    rfl
  · rw [hfar, hnear, if_neg (by simpa [fibrePort] using hp)]
    rfl
  · rw [hfar, hnear, if_neg (by simpa [fibrePort] using hp)]
    rfl
  · simp only [State.buildHail, hlast, Option.map_none]
  · simp only [State.buildHail, hlast, Option.map_some]
  · rw [hvector, RouteComputer.advertise, List.map_map]
    rfl
  · rw [hvector, RouteComputer.advertise, List.getElem?_map, he] at hc
    obtain ⟨-, rfl⟩ := Prod.mk.inj (Option.some.inj hc)
    have hown : e.isOwn s.image = true ↔ s.image.isEnd = true ∧ e.destination = s.image.number := by
      rw [CostEntry.isOwn, Bool.and_eq_true, decide_eq_true_iff]
    refine ⟨fun hd hend => if_pos (hown.2 ⟨hend, hd⟩), fun hother => ?_⟩
    have hnot : ¬ e.isOwn s.image = true := fun h => by
      obtain ⟨hend, hd⟩ := hown.1 h
      rcases hother with hother | hother
      · exact hother hd
      · exact Bool.false_ne_true (hother.symm.trans hend)
    rw [if_neg hnot]
    exact ⟨fun hb => if_pos hb, fun hb => if_neg hb⟩

end Sys2Proof.Machine

/-! The link state machine and the delay filter on one record, the counters, and the notices of a recompute (chapters 3,
4, 5 and 9). -/

namespace Sys2Proof.Machine

/-! ### The delay sample -/

theorem roundTrip_eq (a : Time) (h : Hail) (e : Echo) :
    roundTrip a h e = ((a - e.departure).toNat : Int) - (h.departure - e.receipt).toNat := rfl

theorem sample_of_old {r : LinkRecord} {g : Image} {a : Time} {h : Hail} {e : Echo} (he : h.echo = some e)
    (hold : 3 < (r.lastSent - e.sequence).toNat) : r.sample g a h = (r, false) := by
  simp only [LinkRecord.sample, he]
  exact if_pos hold

/-- The sample of a fresh echo, by its round trip (R55). -/
theorem sample_of_fresh {r : LinkRecord} {g : Image} {a : Time} {h : Hail} {e : Echo} (he : h.echo = some e)
    (hfresh : (r.lastSent - e.sequence).toNat ≤ 3) :
    r.sample g a h = if 0 < roundTrip a h e ∧ roundTrip a h e ≤ 4000000
      then r.filter g.delayJump.toNat (roundTrip a h e / 2).toNat else (r, true) := by
  simp only [LinkRecord.sample, he]
  exact if_neg (Nat.not_lt.2 hfresh)

theorem filter_of_none {r : LinkRecord} (jump m : Nat) (hd : r.delay = none) :
    r.filter jump m = ({ r with delay := some m }, false) := by
  simp only [LinkRecord.filter, hd]

theorem filter_of_some {r : LinkRecord} (jump m : Nat) {d : Nat} (hd : r.delay = some d) :
    r.filter jump m = if ((m : Int) - d).natAbs ≤ jump
      then ({ r with delay := some ((d : Int) + ((m : Int) - d) / 8).toNat, outlierRun := 0 }, false)
      else if r.outlierRun + 1 < 3 then ({ r with outlierRun := r.outlierRun + 1 }, true)
      else ({ r with delay := some m, outlierRun := 0 }, true) := by
  simp only [LinkRecord.filter, hd]

theorem filter_delay_le {r : LinkRecord} {jump m bound : Nat} (hr : ∀ d ∈ r.delay, d ≤ bound) (hm : m ≤ bound) :
    ∀ d ∈ (r.filter jump m).1.delay, d ≤ bound := by
  intro x hx
  cases hd : r.delay with
  | none =>
    rw [filter_of_none jump m hd] at hx
    obtain rfl := Option.some.inj hx
    exact hm
  | some d =>
    have hdb := hr d hd
    rw [filter_of_some jump m hd] at hx
    split at hx
    · obtain rfl := Option.some.inj hx
      omega
    · split at hx
      · exact hr x hx
      · obtain rfl := Option.some.inj hx
        exact hm

/-- Settles O23: by the echo, its age, its round trip, and the delay known before. -/
theorem delaySampleFollowsTheEcho : Obligations.DelaySampleFollowsTheEcho := by
  intro r g a h
  refine ⟨fun he => by simp only [LinkRecord.sample, he], fun e he hold => sample_of_old he hold,
    fun e rt he hfresh hrt => ?_, fun hr => ?_⟩
  · rw [← roundTrip_eq] at hrt
    rw [sample_of_fresh he hfresh, ← hrt]
    refine ⟨fun hout => if_neg (by omega), fun m hlow hhigh hm1 hm2 => ?_⟩
    have hm : (rt / 2).toNat = m := by omega
    rw [if_pos ⟨hlow, hhigh⟩, hm]
    refine ⟨fun hd => filter_of_none _ m hd, fun d hd hnear => ?_, fun d hd hfar => ?_⟩
    · rw [filter_of_some _ m hd, if_pos (by rw [Int.abs_eq_natAbs] at hnear; omega)]
      exact ⟨_, rfl, by omega, by omega⟩
    · rw [filter_of_some _ m hd, if_neg (by rw [Int.abs_eq_natAbs] at hfar; omega)]
      exact ⟨fun hrun => if_pos (by omega), fun hrun => if_neg (by omega)⟩
  · cases he : h.echo with
    | none =>
      simp only [LinkRecord.sample, he]
      exact hr
    | some e =>
      rcases Nat.lt_or_ge 3 (r.lastSent - e.sequence).toNat with hold | hfresh
      · rw [sample_of_old he hold]
        exact hr
      · rw [sample_of_fresh he hfresh]
        split
        · exact filter_delay_le hr (by omega)
        · exact hr

/-! ### The link state machine -/

section
variable {r : LinkRecord}

theorem LinkRecord.atLeast_of_known {m f : Int} (hm : r.near = some m) (hf : r.far = some f) (x : Int) :
    r.atLeast x = decide (x ≤ min m f) := by
  simp only [LinkRecord.atLeast, LinkRecord.effective, hm, hf]

theorem LinkRecord.below_of_known {m f : Int} (hm : r.near = some m) (hf : r.far = some f) (x : Int) :
    r.below x = decide (min m f < x) := by
  simp only [LinkRecord.below, LinkRecord.effective, hm, hf]

theorem LinkRecord.effective_of_unknown (h : r.near = none ∨ r.far = none) : r.effective = none := by
  unfold LinkRecord.effective
  rcases h with h | h <;> rw [h]
  cases r.near <;> rfl

theorem LinkRecord.atLeast_of_unknown (h : r.near = none ∨ r.far = none) (x : Int) : r.atLeast x = false := by
  simp only [LinkRecord.atLeast, LinkRecord.effective_of_unknown h]

theorem LinkRecord.below_of_unknown (h : r.near = none ∨ r.far = none) (x : Int) : r.below x = false := by
  simp only [LinkRecord.below, LinkRecord.effective_of_unknown h]

theorem LinkRecord.partnerDrained_iff : r.partnerDrained = true ↔ r.neighbourState = some .drained :=
  decide_eq_true_iff

variable {g : Image} {now : Time} {timer : Bool}

theorem evaluate_of_still (h : r.state = .off ∨ r.state = .drained) : r.evaluate g now timer = r := by
  rcases h with h | h <;> simp only [LinkRecord.evaluate, h]

theorem evaluate_of_seeking (h : r.state = .seeking) : r.evaluate g now timer
    = if (r.neighbour ≠ none ∧ r.delay ≠ none) ∧ r.atLeast g.restoreLevel = true ∧ r.neighbourState ≠ some .drained
      then r.enterUsable g now else r := by
  simp only [LinkRecord.evaluate, h, LinkRecord.partnerDrained, Bool.and_eq_true, Option.isSome_iff_ne_none, and_assoc,
    Bool.not_eq_true', decide_eq_false_iff_not, ne_eq]

theorem evaluate_of_serving_drained (h : r.state = .clear ∨ r.state = .degraded ∨ r.state = .hold ∨ r.state = .trial)
    (hd : r.neighbourState = some .drained) : r.evaluate g now timer = r.change now .seeking none none := by
  have hp := LinkRecord.partnerDrained_iff.2 hd
  rcases h with h | h | h | h <;> simp only [LinkRecord.evaluate, h, hp, if_true]

section
variable (hd : r.neighbourState ≠ some .drained)
include hd

theorem evaluate_of_clear (h : r.state = .clear) : r.evaluate g now timer
    = if r.below g.fadeLevel then r.change now .faded (some .rain) none
      else if r.below g.degradeLevel then r.change now .degraded none r.stateTimer else r := by
  have hp : r.partnerDrained = false := decide_eq_false hd
  simp only [LinkRecord.evaluate, h, hp, Bool.false_eq_true, if_false]

theorem evaluate_of_degraded (h : r.state = .degraded) : r.evaluate g now timer
    = if r.below g.fadeLevel then r.change now .faded (some .rain) none
      else if r.atLeast (g.degradeLevel + g.hysteresisLevel) then r.change now .clear none r.stateTimer else r := by
  have hp : r.partnerDrained = false := decide_eq_false hd
  simp only [LinkRecord.evaluate, h, hp, Bool.false_eq_true, if_false]

theorem evaluate_of_hold (h : r.state = .hold) : r.evaluate g now timer = if r.below g.restoreLevel then r.fail g now
    else if timer then r.change now .trial none (some ⟨.trial, now, g.trialNs⟩) else r := by
  have hp : r.partnerDrained = false := decide_eq_false hd
  simp only [LinkRecord.evaluate, h, hp, Bool.false_eq_true, if_false]

theorem evaluate_of_trial (h : r.state = .trial) : r.evaluate g now timer = if r.below g.restoreLevel then r.fail g now
    else if timer then r.enterUsable g now else r := by
  have hp : r.partnerDrained = false := decide_eq_false hd
  simp only [LinkRecord.evaluate, h, hp, Bool.false_eq_true, if_false]

end

theorem evaluate_of_faded (h : r.state = .faded) : r.evaluate g now timer
    = if r.silence ≠ none ∧ r.atLeast g.restoreLevel = true ∧ r.neighbourState ≠ some .drained
      then r.change now .hold none (some ⟨.hold, now, r.holdDuration.getD 0 * 1000000⟩) else r := by
  simp only [LinkRecord.evaluate, h, LinkRecord.partnerDrained, Bool.and_eq_true, Option.isSome_iff_ne_none, and_assoc,
    Bool.not_eq_true', decide_eq_false_iff_not, ne_eq]

/-- With a margin unknown, no level is reached and none is missed. -/
theorem evaluate_of_unknown (h : r.near = none ∨ r.far = none) (hd : r.neighbourState ≠ some .drained) :
    r.evaluate g now false = r := by
  have hlow := LinkRecord.below_of_unknown h
  have hhigh := LinkRecord.atLeast_of_unknown h
  cases hs : r.state with
  | off => exact evaluate_of_still (.inl hs)
  | drained => exact evaluate_of_still (.inr hs)
  | seeking => rw [evaluate_of_seeking hs, hhigh, if_neg (by simp)]
  | faded => rw [evaluate_of_faded hs, hhigh, if_neg (by simp)]
  | clear => rw [evaluate_of_clear hd hs, hlow, hlow, if_neg nofun, if_neg nofun]
  | degraded => rw [evaluate_of_degraded hd hs, hlow, hhigh, if_neg nofun, if_neg nofun]
  | hold => rw [evaluate_of_hold hd hs, hlow, if_neg nofun, if_neg nofun]
  | trial => rw [evaluate_of_trial hd hs, hlow, if_neg nofun, if_neg nofun]

end

theorem enterUsable_of_known {r : LinkRecord} {m f : Int} (hm : r.near = some m) (hf : r.far = some f) (g : Image)
    (now : Time) : r.enterUsable g now
      = r.change now (if g.degradeLevel ≤ min m f then .clear else .degraded) none (some ⟨.settle, now, g.settleNs⟩) := by
  simp only [LinkRecord.enterUsable, LinkRecord.atLeast_of_known hm hf, decide_eq_true_iff]

/-- Settles O28: the state decides, then the first condition that holds. -/
theorem linkStateMachineTakesFirstTransition : Obligations.LinkStateMachineTakesFirstTransition := by
  intro r g now timer
  refine ⟨evaluate_of_still, fun hunknown hs => ?_, fun hunknown ht hd => by rw [ht]; exact evaluate_of_unknown hunknown hd,
    fun m f hm hf => ?_⟩
  · have hhigh := LinkRecord.atLeast_of_unknown hunknown g.restoreLevel
    rcases hs with hs | hs
    · rw [evaluate_of_seeking hs, hhigh, if_neg (by simp)]
    · rw [evaluate_of_faded hs, hhigh, if_neg (by simp)]
  have hlow (x : Int) : r.below x = true ↔ min m f < x := by
    rw [LinkRecord.below_of_known hm hf, decide_eq_true_iff]
  have hhigh (x : Int) : r.atLeast x = true ↔ x ≤ min m f := by
    rw [LinkRecord.atLeast_of_known hm hf, decide_eq_true_iff]
  refine ⟨fun hs => ⟨fun hn hp he hd => ?_, fun h => ?_⟩, fun hs hd => ?_, fun hs hd => ?_, fun hs hd => ?_,
    fun hs => ⟨fun hsil he hd d hdur => ?_, fun h => ?_⟩, fun hs => ⟨fun hd => ?_, fun hd he => ?_, fun hd he ht => ?_,
      fun hd he ht hs => ?_, fun hd he ht hs => ?_⟩⟩
  · rw [evaluate_of_seeking hs, if_pos ⟨⟨hn, hp⟩, (hhigh _).2 he, hd⟩, enterUsable_of_known hm hf]
    rfl
  · rw [evaluate_of_seeking hs, if_neg]
    rintro ⟨⟨hn, hp⟩, he, hd⟩
    rw [hhigh] at he
    rcases h with h | h | h | h
    · exact hn h
    · exact hp h
    · exact Int.not_lt.2 he h
    · exact hd h
  · exact evaluate_of_serving_drained (by tauto) hd
  · rw [evaluate_of_clear hd hs]
    refine ⟨fun he => ?_, fun he1 he2 => ?_, fun he1 he2 => ?_⟩
    · rw [if_pos ((hlow _).2 he)]
      rfl
    · rw [if_neg (mt (hlow _).1 (Int.not_lt.2 he1)), if_pos ((hlow _).2 he2)]
      rfl
    · rw [if_neg (mt (hlow _).1 (Int.not_lt.2 he1)), if_neg (mt (hlow _).1 (Int.not_lt.2 he2))]
  · rw [evaluate_of_degraded hd hs]
    refine ⟨fun he => ?_, fun he1 he2 => ?_, fun he1 he2 => ?_⟩
    · rw [if_pos ((hlow _).2 he)]
      rfl
    · rw [if_neg (mt (hlow _).1 (Int.not_lt.2 he1)), if_pos ((hhigh _).2 he2)]
      rfl
    · rw [if_neg (mt (hlow _).1 (Int.not_lt.2 he1)), if_neg (mt (hhigh _).1 (Int.not_le.2 he2))]
  · rw [evaluate_of_faded hs, if_pos ⟨hsil, (hhigh _).2 he, hd⟩, LinkRecord.change, hdur, Option.getD_some]
  · rw [evaluate_of_faded hs, if_neg]
    rintro ⟨hsil, he, hd⟩
    rw [hhigh] at he
    rcases h with h | h | h
    · exact hsil h
    · exact Int.not_lt.2 he h
    · exact hd h
  · exact evaluate_of_serving_drained (by tauto) hd
  · have hfail : r.evaluate g now timer = r.fail g now := by
      rcases hs with hs | hs
      · rw [evaluate_of_hold hd hs, if_pos ((hlow _).2 he)]
      · rw [evaluate_of_trial hd hs, if_pos ((hlow _).2 he)]
    exact hfail
  · rw [ht]
    rcases hs with hs | hs
    · rw [evaluate_of_hold hd hs, if_neg (mt (hlow _).1 (Int.not_lt.2 he)), if_neg nofun]
    · rw [evaluate_of_trial hd hs, if_neg (mt (hlow _).1 (Int.not_lt.2 he)), if_neg nofun]
  · rw [evaluate_of_hold hd hs, if_neg (mt (hlow _).1 (Int.not_lt.2 he)), if_pos ht]
    rfl
  · rw [evaluate_of_trial hd hs, if_neg (mt (hlow _).1 (Int.not_lt.2 he)), if_pos ht, enterUsable_of_known hm hf]
    rfl

/-! ### Counters -/

theorem Counter.wraps_iff (c : Counter) : c.wraps = true ↔ c.value.toNat = 4294967295 := by
  rw [Counter.wraps, decide_eq_true_iff, ← BitVec.toNat_inj]
  rfl

theorem Counter.bump_of_wraps {c : Counter} (h : c.value.toNat = 4294967295) : c.bump = ⟨0, true, true⟩ := by
  have hw := c.wraps_iff.2 h
  have hv : c.value + 1 = 0 := by
    apply BitVec.eq_of_toNat_eq
    rw [BitVec.toNat_add, h]
    rfl
  simp only [Counter.bump, hw, hv, Bool.or_true]

theorem Counter.bump_of_room {c : Counter} (h : c.value.toNat < 4294967295) :
    c.wraps = false ∧ c.bump.value.toNat = c.value.toNat + 1 ∧ c.bump.rollover = c.rollover
      ∧ c.bump.wrapSinceRead = c.wrapSinceRead := by
  have hw : c.wraps = false := Bool.eq_false_iff.2 fun hw => Nat.ne_of_lt h (c.wraps_iff.1 hw)
  refine ⟨hw, ?_, ?_, ?_⟩
  · simp only [Counter.bump, BitVec.toNat_add]
    exact Nat.mod_eq_of_lt (Nat.succ_lt_succ h)
  · simp only [Counter.bump, hw, Bool.or_false]
  · simp only [Counter.bump, hw, Bool.or_false]

/-- Settles O31: a count by whether its counter wraps. -/
theorem countersCountAndWrap : Obligations.CountersCountAndWrap := by
  refine ⟨fun p s => ⟨fun h => ?_, fun h => ?_⟩, fun n c d => ⟨fun hd => ?_, fun h => ?_, fun h => ?_⟩⟩
  · show execFadeTimeAccrual p s = _
    exact congrArg Host.Outcome.next (if_neg (Nat.not_le.2 h))
  · show execFadeTimeAccrual p s = _
    exact congrArg Host.Outcome.next (if_pos h)
  · rw [Statistics.counter_count, if_neg (Ne.symm hd)]
  · obtain ⟨hw, hvalue, hrollover, hwrap⟩ := Counter.bump_of_room h
    rw [Statistics.counter_count, if_pos rfl, Statistics.notices_count, hw]
    exact ⟨hvalue, hrollover, hwrap, rfl⟩
  · rw [Statistics.counter_count, if_pos rfl, Statistics.notices_count, (Counter.wraps_iff _).2 h, if_pos rfl]
    refine ⟨Counter.bump_of_wraps h, ?_⟩
    cases c <;> rfl

/-! ### The notices of a recompute -/

section
variable {f : NoticeSet → Notice} {raise : NoticeSet → CostEntry → NoticeSet} {P : CostEntry → Prop}
  [DecidablePred P]

/-- Entries that raise nothing leave a notice as it was. -/
theorem foldl_not_raised (hraise : ∀ n e, f (raise n e)
      = if P e then (f n).raiseWith (BitVec.ofNat 8 e.destination) else f n) :
    ∀ (l : List CostEntry) (n : NoticeSet), (∀ e ∈ l, ¬ P e) → f (l.foldl raise n) = f n
  | [], _, _ => rfl
  | e :: l, n, h => by
    rw [List.foldl_cons, foldl_not_raised hraise l _ fun x hx => h x (by simp [hx]), hraise, if_neg (h e (by simp))]

theorem foldl_raised_or_not (hraise : ∀ n e, f (raise n e)
      = if P e then (f n).raiseWith (BitVec.ofNat 8 e.destination) else f n) :
    ∀ (l : List CostEntry) (n : NoticeSet), f (l.foldl raise n) = f n ∨ ∃ x, f (l.foldl raise n) = (f n).raiseWith x
  | [], _ => .inl rfl
  | e :: l, n => by
    rw [List.foldl_cons]
    have hstep := hraise n e
    split at hstep <;> rcases foldl_raised_or_not hraise l (raise n e) with h | ⟨x, h⟩ <;> rw [h, hstep]
    · exact .inr ⟨_, rfl⟩
    · exact .inr ⟨x, rfl⟩
    · exact .inl rfl
    · exact .inr ⟨x, rfl⟩

/-- The last entry that raises a notice leaves its detail. -/
theorem foldl_raised (hraise : ∀ n e, f (raise n e)
      = if P e then (f n).raiseWith (BitVec.ofNat 8 e.destination) else f n) (l1 : List CostEntry) {e : CostEntry}
    {l2 : List CostEntry} (n : NoticeSet) (he : P e) (hrest : ∀ x ∈ l2, ¬ P x) :
    f ((l1 ++ e :: l2).foldl raise n) = (f n).raiseWith (BitVec.ofNat 8 e.destination) := by
  rw [List.foldl_append, List.foldl_cons, foldl_not_raised hraise l2 _ hrest, hraise, if_pos he]
  rcases foldl_raised_or_not hraise l1 n with h | ⟨x, h⟩ <;> rw [h]
  rfl

end

theorem routeNotices_routeChange (n : NoticeSet) (o w : CostEntry) : (routeNotices n o w).routeChange
    = if w.best ≠ o.best then n.routeChange.raiseWith (BitVec.ofNat 8 w.destination) else n.routeChange := by
  simp only [routeNotices, ne_comm (a := o.best)]
  split <;> split <;> rfl

theorem routeNotices_noRoute (n : NoticeSet) (o w : CostEntry) : (routeNotices n o w).noRoute
    = if o.own < 16777215 ∧ w.own = 16777215 then n.noRoute.raiseWith (BitVec.ofNat 8 w.destination)
      else n.noRoute := by
  have hkept : (if o.best ≠ w.best then n.raiseDestination .routeChange w.destination else n).noRoute = n.noRoute := by
    split <;> rfl
  rw [routeNotices, apply_ite NoticeSet.noRoute]
  exact if_congr Iff.rfl (congrArg (Notice.raiseWith · (BitVec.ofNat 8 w.destination)) hkept) hkept

theorem routeNotices_get (n : NoticeSet) (o w : CostEntry) {k : NoticeKind} (h1 : k ≠ .routeChange)
    (h2 : k ≠ .noRoute) : (routeNotices n o w).get k = n.get k := by
  simp only [routeNotices, NoticeSet.raiseDestination]
  split <;> split <;> simp only [NoticeSet.get_set_of_ne _ _ h1, NoticeSet.get_set_of_ne _ _ h2]

theorem recomputeNotices_get (t : RouteComputer) (g : Image) (lm : PerPort LinkRecord) {k : NoticeKind}
    (h1 : k ≠ .routeChange) (h2 : k ≠ .noRoute) (n : NoticeSet) :
    (t.recomputeNotices g lm n).get k = n.get k := by
  simp only [RouteComputer.recomputeNotices]
  generalize t.entries = l
  induction l generalizing n with
  | nil => rfl
  | cons e l ih => exact (ih _).trans (routeNotices_get n e _ h1 h2)

theorem routeNotices_self (n : NoticeSet) (e : CostEntry) : routeNotices n e e = n := by
  rw [routeNotices, if_neg (not_not_intro rfl), if_neg]
  rintro ⟨hlow, hhigh⟩
  omega

/-- A settled table raises nothing when it is computed again. -/
theorem recomputeNotices_of_settled {t : RouteComputer} {g : Image} {lm : PerPort LinkRecord}
    (h : ∀ e ∈ t.entries, e.recompute g lm = e) (n : NoticeSet) : t.recomputeNotices g lm n = n := by
  simp only [RouteComputer.recomputeNotices]
  generalize t.entries = l at h
  induction l generalizing n with
  | nil => rfl
  | cons e l ih =>
    rw [List.foldl_cons, h e (by simp), routeNotices_self]
    exact ih n fun x hx => h x (by simp [hx])

theorem State.recompute_recompute (s : State) : s.recompute.recompute = s.recompute := by
  have hsettled : ∀ e ∈ s.recompute.rc.entries, e.recompute s.recompute.image s.recompute.lm = e := by
    intro e he
    obtain ⟨e0, -, rfl⟩ := List.mem_map.1 he
    exact e0.recompute_recompute _ _
  have hrc : s.recompute.rc.recompute s.recompute.image s.recompute.lm = s.recompute.rc := by
    rw [RouteComputer.recompute, List.map_congr_left hsettled, List.map_id']
  have hnotices := recomputeNotices_of_settled hsettled s.recompute.snu.notices
  have h : s.recompute.recompute = { s.recompute with
    rc := s.recompute.rc.recompute s.recompute.image s.recompute.lm,
    snu := { s.recompute.snu with notices :=
      s.recompute.rc.recomputeNotices s.recompute.image s.recompute.lm s.recompute.snu.notices } } := rfl
  rw [h, hrc, hnotices]

/-- Settles O34: the notices by the last entry that raises each. -/
theorem recomputeRaisesRouteNotices : Obligations.RecomputeRaisesRouteNotices := by
  intro s
  have hchange (n : NoticeSet) (e : CostEntry) := routeNotices_routeChange n e (e.recompute s.image s.lm)
  have hlost (n : NoticeSet) (e : CostEntry) := routeNotices_noRoute n e (e.recompute s.image s.lm)
  simp only [CostEntry.recompute_destination] at hchange hlost
  refine ⟨rfl, rfl, rfl, s.recompute_recompute, fun k h1 h2 => recomputeNotices_get s.rc _ _ h1 h2 _, fun h => ?_,
    fun h => ?_, fun l1 e l2 hl => ⟨fun he hrest => ?_, fun he hrest => ?_⟩⟩
  · exact foldl_not_raised (f := NoticeSet.routeChange) hchange _ _ fun e he => not_not_intro (h e he)
  · exact foldl_not_raised (f := NoticeSet.noRoute) hlost _ _ h
  · have hraised := foldl_raised (f := NoticeSet.routeChange) hchange l1 s.snu.notices he fun x hx =>
      not_not_intro (hrest x hx)
    rw [← hl] at hraised
    exact hraised
  · have hraised := foldl_raised (f := NoticeSet.noRoute) hlost l1 s.snu.notices he hrest
    rw [← hl] at hraised
    exact hraised

/-! ### The alarm line and the top notice -/

/-- Whether a kind is pending and enabled (R157). -/
def State.alarms (s : State) (k : NoticeKind) : Bool := (s.snu.notices.get k).pending && s.image.enablesNotice k.toNat

theorem State.alarms_iff (s : State) (k : NoticeKind) : s.alarms k = true
    ↔ (s.snu.notices.get k).pending = true ∧ s.image.noticeEnable.getLsbD k.toNat = true :=
  Bool.and_eq_true_iff

theorem NoticeKind.mem_all (k : NoticeKind) : k ∈ NoticeKind.all := by
  cases k <;> decide

theorem State.alarm_iff (s : State) : s.alarm = true ↔ ∃ k, s.alarms k = true := by
  simp only [State.alarm, alarmLine, List.any_eq_true, NoticeKind.mem_all, true_and]
  rfl

/-- Every notice order holds every kind. -/
theorem mem_noticeOrder (draw : Nat) (order : Byte) (k : NoticeKind) : k ∈ noticeOrder draw order := by
  have hgroups : ∀ (i : Fin 6) (x : NoticeGroup), x ∈ groupOrder i := by
    intro i x
    cases x <;> revert i <;> decide
  have hkinds : ∃ x, k ∈ groupKinds order x := by
    cases k with
    | linkDown | linkUp => exact ⟨.a, by rw [groupKinds]; split <;> decide⟩
    | routeChange | noRoute => exact ⟨.b, by rw [groupKinds]; split <;> decide⟩
    | countWrap | timeEvent => exact ⟨.c, by rw [groupKinds]; split <;> decide⟩
  obtain ⟨x, hx⟩ := hkinds
  simp only [noticeOrder, List.mem_flatten, List.mem_map, exists_exists_and_eq_and]
  refine ⟨x, ?_, hx⟩
  split
  · exact hgroups _ x
  · exact hgroups _ x

theorem noticeOrder_of_code (draw : Nat) {order : Byte} {i : Fin 6} (h : order.toNat % 8 = i.val) :
    noticeOrder draw order = ((groupOrder i).map (groupKinds order)).flatten := by
  have hlt : order.toNat % 8 < 6 := h ▸ i.isLt
  have hi : (⟨order.toNat % 8, hlt⟩ : Fin 6) = i := Fin.ext h
  simp only [noticeOrder, dif_pos hlt, hi]

theorem State.topNotice_eq (s : State) :
    s.topNotice = (noticeOrder s.draws s.orderInForce).find? s.alarms := rfl

/-- Settles O36: the first kind of the order that is pending and enabled. -/
theorem alarmAndTopNoticeFollowTheEnables : Obligations.AlarmAndTopNoticeFollowTheEnables := by
  intro s
  have horder : s.orderInForce = if s.inService = true then s.image.noticeOrder else 0 := by
    unfold State.orderInForce Image.defaults
    rfl
  refine ⟨by simp only [State.alarm_iff, State.alarms_iff], ?_, ?_⟩
  · rw [State.topNotice_eq, List.find?_eq_none, ← Bool.not_eq_true, State.alarm_iff, not_exists]
    exact ⟨fun h k => h k (mem_noticeOrder _ _ k), fun h k _ => h k⟩
  · intro l hl l1 k l2 hsplit hon hbefore
    have hl' : noticeOrder s.draws s.orderInForce = l := by
      rw [← horder] at hl
      rcases hl with ⟨hcode, hl⟩ | ⟨hcode, hl⟩ | ⟨hcode, hl⟩ | ⟨hcode, hl⟩ | ⟨hcode, hl⟩ | ⟨hcode, hl⟩
      · rw [noticeOrder_of_code s.draws (i := 0) hcode, hl]; simp [groupOrder, groupKinds]
      · rw [noticeOrder_of_code s.draws (i := 1) hcode, hl]; simp [groupOrder, groupKinds]
      · rw [noticeOrder_of_code s.draws (i := 2) hcode, hl]; simp [groupOrder, groupKinds]
      · rw [noticeOrder_of_code s.draws (i := 3) hcode, hl]; simp [groupOrder, groupKinds]
      · rw [noticeOrder_of_code s.draws (i := 4) hcode, hl]; simp [groupOrder, groupKinds]
      · rw [noticeOrder_of_code s.draws (i := 5) hcode, hl]; simp [groupOrder, groupKinds]
    rw [State.topNotice_eq, hl', hsplit, List.find?_append, List.find?_eq_none.2, Option.none_or,
      List.find?_cons_of_pos ((s.alarms_iff k).2 hon)]
    intro j hj
    rw [State.alarms_iff]
    exact hbefore j hj

end Sys2Proof.Machine

/-! What the events of the Link Monitor do to the counters and notices, and the state after a link event: one account of
reports, recompute and queue work for every such event (R78 to R80, R91, R129). -/

namespace Sys2Proof.Machine

/-! ### Counts and raises -/

/-- Statistics changed by counts of the counters in `C` and by raises of the kinds in `K`. -/
inductive Statistics.Work (C : CounterName → Bool) (K : NoticeKind → Bool) (n : Statistics) : Statistics → Prop
  | refl : Work C K n n
  | count {m : Statistics} {c : CounterName} (w : Work C K n m) (hc : C c = true) : Work C K n (m.count c)
  | raise {m : Statistics} {k : NoticeKind} {x : Notice} (w : Work C K n m) (hk : K k = true) (hx : x.pending = true) :
      Work C K n { m with notices := m.notices.set k x }

section
variable {C : CounterName → Bool} {K : NoticeKind → Bool} {n m o : Statistics}

theorem Statistics.Work.trans (h1 : n.Work C K m) (h2 : m.Work C K o) : n.Work C K o := by
  induction h2 with
  | refl => exact h1
  | count _ hc ih => exact ih.count hc
  | raise _ hk hx ih => exact ih.raise hk hx

theorem Statistics.Work.mono {C' : CounterName → Bool} {K' : NoticeKind → Bool} (h : n.Work C K m)
    (hC : ∀ c, C c = true → C' c = true) (hK : ∀ k, K k = true → K' k = true) : n.Work C' K' m := by
  induction h with
  | refl => exact .refl
  | count _ hc ih => exact ih.count (hC _ hc)
  | raise _ hk hx ih => exact ih.raise (hK _ hk) hx

theorem Statistics.counter_notices (n : Statistics) (x : NoticeSet) (c : CounterName) :
    ({ n with notices := x } : Statistics).counter c = n.counter c := by
  cases c <;> rfl

/-- A counter that the work does not count is as it was. -/
theorem Statistics.Work.counter (h : n.Work C K m) {c : CounterName} (hc : C c = false) :
    m.counter c = n.counter c := by
  induction h with
  | refl => rfl
  | @count m d _ hd ih =>
    have hne : d ≠ c := fun e => Bool.false_ne_true (hc.symm.trans (e ▸ hd))
    rw [Statistics.counter_count, if_neg hne, ih]
  | raise _ _ _ ih => rw [Statistics.counter_notices, ih]

/-- A notice that the work does not raise is as it was. -/
theorem Statistics.Work.notice (h : n.Work C K m) {k : NoticeKind} (hk : K k = false) (hwrap : k ≠ .countWrap) :
    m.notices.get k = n.notices.get k := by
  induction h with
  | refl => rfl
  | count _ _ ih =>
    rw [Statistics.notices_count]
    split
    · rw [NoticeSet.raiseBit, NoticeSet.get_set_of_ne _ _ hwrap, ih]
    · exact ih
  | @raise m j x _ hj _ ih =>
    have hne : k ≠ j := fun e => Bool.false_ne_true (hk.symm.trans (e ▸ hj))
    rw [NoticeSet.get_set_of_ne _ _ hne, ih]

end

/-- The counters of queue work: drops, flushes and re-aims of queue entries (R125, R127, R129, R130). -/
def CounterName.queueWork : CounterName → Bool
  | .port _ .ageDrop | .port _ .flushed | .port _ .reaimed | .port _ .queueDrop => true
  | _ => false

/-- The notices of a recompute (R93, R94). -/
def NoticeKind.ofRoutes : NoticeKind → Bool
  | .routeChange | .noRoute => true
  | _ => false

/-- Queue work and recomputes, as the statistics see them. -/
abbrev Statistics.RouteWork (n m : Statistics) : Prop := n.Work CounterName.queueWork NoticeKind.ofRoutes m

theorem select_routeWork (s : State) (p : Port) : s.snu.RouteWork (s.select p).snu :=
  select_induct (P := fun t => s.snu.RouteWork t.snu) (fun _ h _ _ => h) (fun _ _ _ h _ _ => h)
    (fun _ _ _ _ h _ _ => h.count rfl) (fun _ _ _ _ h _ _ _ _ => h) .refl

theorem flushEntry_routeWork (p : Port) (s : State) (e : Urgency × Nat) :
    s.snu.RouteWork (State.flushEntry p s e).snu := by
  obtain ⟨u, i⟩ := e
  cases hb : s.fe.buffer? i with
  | none =>
    have he : State.flushEntry p s (u, i) = s := by simp only [State.flushEntry, hb]
    rw [he]
    exact .refl
  | some b =>
    by_cases hflush : b.header.kind = .flood ∨ s.reaimPort b = none
    · rw [flushEntry_flushed hb hflush]
      exact Statistics.Work.refl.count rfl
    · rw [not_or] at hflush
      obtain ⟨hk, hr⟩ := hflush
      obtain ⟨r, hr⟩ := Option.ne_none_iff_exists'.1 hr
      have hkind : b.header.kind = .aimed := by
        cases h : b.header.kind with
        | flood => exact absurd h hk
        | aimed => rfl
      rw [flushEntry_aimed hb hkind hr]
      split
      · exact (Statistics.Work.refl.count rfl).trans
          (select_routeWork ((s.rejoined i u r).count (.port p .reaimed)) r)
      · exact Statistics.Work.refl.count rfl

theorem flush_routeWork (s : State) (p : Port) : s.snu.RouteWork (s.flush p).snu :=
  flush_induct (P := fun t => s.snu.RouteWork t.snu) (fun t e h => h.trans (flushEntry_routeWork p t e)) .refl

theorem recompute_routeWork (s : State) : s.snu.RouteWork s.recompute.snu := by
  have hentry (n : Statistics) (o w : CostEntry) :
      n.RouteWork { n with notices := routeNotices n.notices o w } := by
    have hchange : n.RouteWork { n with notices :=
        if o.best ≠ w.best then n.notices.raiseDestination .routeChange w.destination else n.notices } := by
      split
      · exact Statistics.Work.refl.raise rfl rfl
      · exact .refl
    rw [routeNotices]
    split
    · exact hchange.raise rfl rfl
    · exact hchange
  have hall (l : List CostEntry) (n : Statistics) : n.RouteWork { n with
      notices := l.foldl (fun x e => routeNotices x e (e.recompute s.image s.lm)) n.notices } := by
    induction l generalizing n with
    | nil => exact .refl
    | cons e l ih => exact (hentry n e _).trans (ih _)
  exact hall s.rc.entries s.snu

/-! ### A flushed port that no route names -/

theorem select_link_of_ne (s : State) {p q : Port} (h : q ≠ p) : (s.select p).link q = s.link q :=
  select_induct (P := fun t => t.link q = s.link q)
    (fun t ht _ _ => (State.setLink_link_of_ne (t.setTx p _) _ h).trans ht)
    (fun _ _ _ ht _ _ => ht) (fun _ _ _ _ ht _ _ => ht) (fun _ _ _ _ ht _ _ _ _ => ht) rfl

/-- On a settled table, the flush of a port out of service leaves the port's record as it is and its queue empty, for no
entry is re-aimed at the port. -/
theorem flush_of_settled {s : State} {p : Port} (hcosts : s.costsSettled) (hp : (s.link p).state.usable = false) :
    (s.flush p).link p = s.link p ∧ (s.flush p).queue p = .empty := by
  have hkept : (s.flush p).costsSettled ∧ (s.flush p).link p = s.link p ∧ (s.flush p).queue p = .empty := by
    refine flush_induct (P := fun t => t.costsSettled ∧ t.link p = s.link p ∧ t.queue p = .empty)
      (fun t e h => ?_) ⟨hcosts, rfl, State.setQueue_queue_self s p _⟩
    obtain ⟨hc, hlink, hqueue⟩ := h
    have hc' := (EgressWork.flushEntry p t e).costsSettled hc
    refine ⟨hc', ?_⟩
    rcases flushEntry_cases p t e with e' | ⟨b, -, c, e'⟩ | ⟨b, r, -, hr, -, e'⟩ <;> rw [e']
    · exact ⟨hlink, hqueue⟩
    · exact ⟨hlink, hqueue⟩
    · have hne : p ≠ r := fun e => by
        have husable := usable_of_reaimPort hc hr
        rw [← e, hlink, hp] at husable
        exact Bool.false_ne_true husable
      exact ⟨(select_link_of_ne _ hne).trans hlink,
        (select_queue_of_ne _ hne).trans ((State.setQueue_queue_of_ne _ _ hne).trans hqueue)⟩
  exact hkept.2

/-! ### The state after a link event -/

/-- The event's record, heard costs, counts and reports, before its recompute (R79, R80). -/
def State.reported (s : State) (p : Port) (r : LinkRecord) (rc : RouteComputer) (counted : List PortCounter)
    (leaves enters : Bool) : State :=
  let counts := counted.foldl (fun s c => s.count (.port p c)) { s.setLink p r with rc := rc }
  let down := if leaves then counts.raiseBit .linkDown p.toNat else counts
  if enters then down.raiseBit .linkUp p.toNat else down

/-- One recompute, where it is called for. -/
def State.recomputedIf (s : State) (b : Bool) : State := if b then s.recompute else s

theorem afterLinkEvent_eq (s : State) (p : Port) (r : LinkRecord) (rc : RouteComputer) (counted : List PortCounter)
    (recomputes leaves enters : Bool) : s.afterLinkEvent p r rc counted recomputes leaves enters
      = if leaves then ((s.reported p r rc counted leaves enters).recomputedIf recomputes).flush p
        else (s.reported p r rc counted leaves enters).recomputedIf recomputes := rfl

theorem foldl_count (p : Port) (l : List PortCounter) (s : State) :
    l.foldl (fun s c => s.count (.port p c)) s
      = { s with snu := l.foldl (fun n c => n.count (.port p c)) s.snu } := by
  induction l generalizing s with
  | nil => rfl
  | cons c l ih => exact ih (s.count (.port p c))

/-- The statistics of an event's counts and reports (R79, R80). -/
def Statistics.reported (n : Statistics) (p : Port) (counted : List PortCounter) (leaves enters : Bool) : Statistics :=
  let counts := counted.foldl (fun n c => n.count (.port p c)) n
  let down := if leaves then { counts with notices := counts.notices.raiseBit .linkDown p.toNat } else counts
  if enters then { down with notices := down.notices.raiseBit .linkUp p.toNat } else down

theorem reported_eq (s : State) (p : Port) (r : LinkRecord) (rc : RouteComputer) (counted : List PortCounter)
    (leaves enters : Bool) : s.reported p r rc counted leaves enters
      = { s.setLink p r with rc := rc, snu := s.snu.reported p counted leaves enters } := by
  simp only [State.reported, foldl_count]
  cases leaves <;> cases enters <;> rfl

theorem foldl_count_get (p : Port) (l : List PortCounter) (n : Statistics) {k : NoticeKind} (hk : k ≠ .countWrap) :
    (l.foldl (fun n c => n.count (.port p c)) n).notices.get k = n.notices.get k := by
  induction l generalizing n with
  | nil => rfl
  | cons c l ih => exact (ih _).trans (Statistics.Work.notice (C := fun _ => true) (K := fun _ => false)
      (Statistics.Work.refl.count rfl) rfl hk)

theorem Statistics.reported_counter (n : Statistics) (p : Port) (counted : List PortCounter) (leaves enters : Bool)
    (c : CounterName) : (n.reported p counted leaves enters).counter c
      = (counted.foldl (fun n c => n.count (.port p c)) n).counter c := by
  cases leaves <;> cases enters <;> cases c <;> rfl

theorem Statistics.reported_linkDown (n : Statistics) (p : Port) (counted : List PortCounter) (leaves enters : Bool) :
    (n.reported p counted leaves enters).notices.linkDown
      = if leaves then n.notices.linkDown.raiseBit p.toNat else n.notices.linkDown := by
  have h : (counted.foldl (fun n c => n.count (.port p c)) n).notices.linkDown = n.notices.linkDown :=
    foldl_count_get p counted n (k := .linkDown) nofun
  rw [← h]
  cases leaves <;> cases enters <;> rfl

theorem Statistics.reported_linkUp (n : Statistics) (p : Port) (counted : List PortCounter) (leaves enters : Bool) :
    (n.reported p counted leaves enters).notices.linkUp
      = if enters then n.notices.linkUp.raiseBit p.toNat else n.notices.linkUp := by
  have h : (counted.foldl (fun n c => n.count (.port p c)) n).notices.linkUp = n.notices.linkUp :=
    foldl_count_get p counted n (k := .linkUp) nofun
  rw [← h]
  cases leaves <;> cases enters <;> rfl

theorem reported_link (s : State) (p : Port) (r : LinkRecord) (rc : RouteComputer) (counted : List PortCounter)
    (leaves enters : Bool) (q : Port) :
    (s.reported p r rc counted leaves enters).link q = if q = p then r else s.link q := by
  rw [reported_eq]
  split
  · next h =>
    rw [h]
    exact State.setLink_link_self s p r
  · next h => exact State.setLink_link_of_ne s r h

theorem reported_lineWork (s : State) (p : Port) (r : LinkRecord) (rc : RouteComputer) (counted : List PortCounter)
    (leaves enters : Bool) : LineWork s (s.reported p r rc counted leaves enters) := by
  rw [reported_eq]
  exact .of_tables s _ rc _

/-- `t` is what an event of port `p` leaves of `s`: `State.afterLinkEvent`, as a relation. -/
structure State.LinkEvent (s t : State) (p : Port) (r : LinkRecord) (rc : RouteComputer) (counted : List PortCounter)
    (recomputes leaves enters : Bool) : Prop where
  eq : t = s.afterLinkEvent p r rc counted recomputes leaves enters

namespace State.LinkEvent
variable {s t : State} {p : Port} {r : LinkRecord} {rc : RouteComputer} {counted : List PortCounter}
  {recomputes leaves enters : Bool} (h : s.LinkEvent t p r rc counted recomputes leaves enters)
include h

/-- The event as the work of its tables and then egress work. -/
theorem egress : ∃ u, EgressWork u t ∧ u.snu.RouteWork t.snu
    ∧ u = (s.reported p r rc counted leaves enters).recomputedIf recomputes := by
  rw [h.eq, afterLinkEvent_eq]
  generalize (s.reported p r rc counted leaves enters).recomputedIf recomputes = u
  refine ⟨u, ?_, ?_, rfl⟩
  · split
    · exact .flush u p
    · exact .refl u
  · split
    · exact flush_routeWork u p
    · exact .refl

theorem lineWork : LineWork s t := by
  obtain ⟨u, hwork, -, hu⟩ := h.egress
  refine LineWork.trans ?_ (.of_egress hwork)
  rw [hu, State.recomputedIf]
  split
  · exact (reported_lineWork s p r rc counted leaves enters).trans (.recompute _)
  · exact reported_lineWork s p r rc counted leaves enters

theorem links (q : Port) : (t.link q).hailedFrom (if q = p then r else s.link q) := by
  obtain ⟨u, hwork, -, hu⟩ := h.egress
  have hlink : u.link q = if q = p then r else s.link q := by
    rw [hu, State.recomputedIf, ← reported_link s p r rc counted leaves enters q]
    split <;> rfl
  rw [← hlink]
  exact hwork.link q

theorem link_self : (t.link p).hailedFrom r := by
  have hlinks := h.links p
  rwa [if_pos rfl] at hlinks

theorem link_of_ne {q : Port} (hq : q ≠ p) : (t.link q).hailedFrom (s.link q) := by
  have hlinks := h.links q
  rwa [if_neg hq] at hlinks

/-- After its own recompute, an event that takes the port out of service leaves the port's record and an empty queue. -/
theorem at_port (hleaves : leaves = true → recomputes = true ∧ r.state.usable = false) :
    t.link p = r ∧ t.queue p = if leaves then .empty else s.queue p := by
  have hlink := reported_link s p r rc counted leaves enters p
  rw [if_pos rfl] at hlink
  have hqueue : (s.reported p r rc counted leaves enters).queue p = s.queue p := by
    rw [reported_eq]
    rfl
  rw [h.eq, afterLinkEvent_eq]
  cases hl : leaves with
  | false =>
    subst hl
    cases recomputes
    · exact ⟨hlink, hqueue⟩
    · exact ⟨hlink, hqueue⟩
  | true =>
    subst hl
    obtain ⟨rfl, hr⟩ := hleaves rfl
    have hflush := flush_of_settled (p := p) (State.recompute_settled (s.reported p r rc counted true enters))
      (by rw [State.recompute_link, hlink]; exact hr)
    rw [State.recompute_link, hlink] at hflush
    exact hflush

theorem rc_eq : t.rc = if recomputes then rc.recompute s.image (s.lm.set p r) else rc := by
  obtain ⟨u, hwork, -, hu⟩ := h.egress
  rw [hwork.rc, hu, State.recomputedIf, reported_eq]
  split <;> rfl

theorem settled (hr : recomputes = true) : t.costsSettled := by
  obtain ⟨u, hwork, -, hu⟩ := h.egress
  refine hwork.costsSettled ?_
  rw [hu, State.recomputedIf, if_pos hr]
  exact State.recompute_settled _

theorem hearsAs {gone : Option Port} (hrc : rc.hearsAs s.rc gone) : t.rc.hearsAs s.rc gone := by
  rw [h.rc_eq]
  split
  · exact RouteComputer.hearsAs_recompute hrc _ _
  · exact hrc

/-- The counters and notices of the event itself, which neither the recompute nor the queue work touches. -/
theorem snu : (s.snu.reported p counted leaves enters).RouteWork t.snu := by
  obtain ⟨u, -, hsnu, hu⟩ := h.egress
  have hreported : (s.reported p r rc counted leaves enters).snu = s.snu.reported p counted leaves enters := by
    rw [reported_eq]
  refine Statistics.Work.trans ?_ hsnu
  rw [hu, State.recomputedIf, ← hreported]
  split
  · exact recompute_routeWork _
  · exact .refl

theorem linkDown : t.snu.notices.linkDown
    = if leaves then s.snu.notices.linkDown.raiseBit p.toNat else s.snu.notices.linkDown :=
  (h.snu.notice (k := .linkDown) rfl nofun).trans (Statistics.reported_linkDown _ _ _ _ _)

theorem linkUp : t.snu.notices.linkUp
    = if enters then s.snu.notices.linkUp.raiseBit p.toNat else s.snu.notices.linkUp :=
  (h.snu.notice (k := .linkUp) rfl nofun).trans (Statistics.reported_linkUp _ _ _ _ _)

theorem counter {c : CounterName} (hc : c.queueWork = false) :
    t.snu.counter c = (counted.foldl (fun n c => n.count (.port p c)) s.snu).counter c :=
  (h.snu.counter hc).trans (Statistics.reported_counter _ _ _ _ _ _)

end State.LinkEvent

/-- Line work changes the Line Interfaces, link records, Cost Table, Forwarding Engine and statistics alone. -/
theorem LineWork.frame {s t : State} (w : LineWork s t) :
    t = { s with li := t.li, lm := t.lm, rc := t.rc, fe := t.fe, snu := t.snu } := by
  obtain ⟨hpending, hdraws, hreset, htu, haf, hlpc, hslc, -⟩ := w
  cases s
  cases t
  simp only at hpending hdraws hreset htu haf hlpc hslc
  subst hpending hdraws hreset htu haf hlpc hslc
  rfl

/-! ### Every event of the Link Monitor as one -/

/-- What an event counts on the port it leaves in `new` from `old` (R80). -/
def fadeCounted (old new : LinkState) : List PortCounter := if new = .faded ∧ old ≠ .faded then [.fadeCount] else []

theorem report_reported (s : State) (p : Port) (r : LinkRecord) (rc : RouteComputer) (old : LinkState) :
    State.report { s.setLink p r with rc := rc } p old r.state
      = s.reported p r rc (fadeCounted old r.state) (old.leaves r.state) (r.state.leaves old) := by
  rw [State.report_eq]
  simp only [State.reported, fadeCounted, State.countIf, ← Bool.decide_and, decide_eq_true_iff]
  by_cases h : r.state = .faded ∧ old ≠ .faded
  · rw [if_pos h, if_pos h]
    rfl
  · rw [if_neg h, if_neg h]
    rfl

/-- An event that sets a port's record and the heard costs, reports, and settles the routes. -/
theorem settleRoutes_report (s : State) (p : Port) (r : LinkRecord) (rc : RouteComputer) (old : LinkState)
    (always : Bool) :
    (State.report { s.setLink p r with rc := rc } p old r.state).settleRoutes p old always
      = s.afterLinkEvent p r rc (fadeCounted old r.state) (always || old.reroutes r.state) (old.leaves r.state)
          (r.state.leaves old) := by
  have hlink := reported_link s p r rc (fadeCounted old r.state) (old.leaves r.state) (r.state.leaves old) p
  rw [if_pos rfl] at hlink
  rw [report_reported, afterLinkEvent_eq, State.settleRoutes, hlink]
  have hrouted : ((s.reported p r rc (fadeCounted old r.state) (old.leaves r.state)
      (r.state.leaves old)).recomputedIf (always || old.reroutes r.state)).link p = r := by
    rw [State.recomputedIf]
    split
    · exact hlink
    · exact hlink
  rw [State.recomputedIf] at hrouted
  simp only [hrouted, State.recomputedIf]

/-- Costs heard do not enter a report. -/
theorem report_rc (s : State) (p : Port) (old new : LinkState) (rc : RouteComputer) :
    { s.report p old new with rc := rc } = State.report { s with rc := rc } p old new := by
  simp only [State.report, State.countIf]
  split <;> split <;> try split
  all_goals rfl

end Sys2Proof.Machine

/-! The events of the Link Monitor: HAILs of this station, status words, silence, the state timer, and actions, each as
one link event (chapters 3 and 4). -/

namespace Sys2Proof.Machine

/-! ### Events as link events -/

section
variable (s : State) (p : Port)

/-- An event that changes a port's record alone and reports it. -/
theorem transition_settleRoutes (f : LinkRecord → LinkRecord) (always : Bool) :
    (s.transition p f).settleRoutes p (s.link p).state always
      = s.afterLinkEvent p (f (s.link p)) s.rc (fadeCounted (s.link p).state (f (s.link p)).state)
          (always || (s.link p).state.reroutes (f (s.link p)).state) ((s.link p).state.leaves (f (s.link p)).state)
          ((f (s.link p)).state.leaves (s.link p).state) :=
  settleRoutes_report s p (f (s.link p)) s.rc (s.link p).state always

/-- An event that changes a port's record, reports it, and forgets the costs heard there. -/
theorem transition_forgetCosts (f : LinkRecord → LinkRecord) (always : Bool) :
    ((s.transition p f).forgetCosts p).settleRoutes p (s.link p).state always
      = s.afterLinkEvent p (f (s.link p)) (s.rc.forget p) (fadeCounted (s.link p).state (f (s.link p)).state)
          (always || (s.link p).state.reroutes (f (s.link p)).state) ((s.link p).state.leaves (f (s.link p)).state)
          ((f (s.link p)).state.leaves (s.link p).state) := by
  have hrc : (s.transition p f).forgetCosts p
      = State.report { s.setLink p (f (s.link p)) with rc := s.rc.forget p } p (s.link p).state (f (s.link p)).state := by
    rw [← report_rc, State.forgetCosts, transition_rc]
    rfl
  rw [hrc]
  exact settleRoutes_report s p (f (s.link p)) (s.rc.forget p) (s.link p).state always

/-- The same event on a record that was first replaced by one of the same link state. -/
theorem setLink_transition_settleRoutes {r : LinkRecord} (hr : r.state = (s.link p).state)
    (f : LinkRecord → LinkRecord) (always : Bool) :
    ((s.setLink p r).transition p f).settleRoutes p (s.link p).state always
      = s.afterLinkEvent p (f r) s.rc (fadeCounted (s.link p).state (f r).state)
          (always || (s.link p).state.reroutes (f r).state) ((s.link p).state.leaves (f r).state)
          ((f r).state.leaves (s.link p).state) := by
  have h := settleRoutes_report s p (f r) s.rc (s.link p).state always
  have hset : (s.setLink p r).setLink p (f r) = s.setLink p (f r) := by simp only [State.setLink, PerPort.set_set]
  rw [State.transition, State.setLink_link_self, hset, hr]
  exact h

theorem statusWord_event (w : StatusWord) : s.statusWord p w
    = (let r := ((s.link p).word s.image w).evaluate s.image s.now false
       s.afterLinkEvent p r s.rc (fadeCounted (s.link p).state r.state)
         (decide (w.profile ≠ (s.link p).profile) || (s.link p).state.reroutes r.state)
         ((s.link p).state.leaves r.state) (r.state.leaves (s.link p).state)) :=
  setLink_transition_settleRoutes s p (r := (s.link p).word s.image w) rfl
    (fun r => r.evaluate s.image s.now false) _

theorem settleEvent_event : s.settleEvent p
    = (let r := ((s.link p).settle s.image).evaluate s.image s.now false
       s.afterLinkEvent p r s.rc (fadeCounted (s.link p).state r.state) ((s.link p).state.reroutes r.state)
         ((s.link p).state.leaves r.state) (r.state.leaves (s.link p).state)) :=
  setLink_transition_settleRoutes s p (r := (s.link p).settle s.image) rfl
    (fun r => r.evaluate s.image s.now false) false

theorem timerEvent_event : s.timerEvent p
    = (let r := (s.link p).evaluate s.image s.now true
       s.afterLinkEvent p r s.rc (fadeCounted (s.link p).state r.state) ((s.link p).state.reroutes r.state)
         ((s.link p).state.leaves r.state) (r.state.leaves (s.link p).state)) :=
  transition_settleRoutes s p (fun r => r.evaluate s.image s.now true) false

theorem silent_event : s.silent p
    = (let r := (s.link p).silent (fibrePort p) s.now
       s.afterLinkEvent p r (if (s.link p).state.silenceForgets then s.rc.forget p else s.rc)
         (fadeCounted (s.link p).state r.state)
         ((s.link p).state.silenceForgets || (s.link p).state.reroutes r.state)
         ((s.link p).state.leaves r.state) (r.state.leaves (s.link p).state)) := by
  simp only [State.silent]
  cases (s.link p).state.silenceForgets
  · exact transition_settleRoutes s p (fun r => r.silent (fibrePort p) s.now) false
  · exact transition_forgetCosts s p (fun r => r.silent (fibrePort p) s.now) true

theorem selfHail_event : s.selfHail p
    = (let r := (s.link p).selfHail (fibrePort p) s.now
       s.afterLinkEvent p r (s.rc.forget p) (fadeCounted (s.link p).state r.state) true
         ((s.link p).state.leaves r.state) (r.state.leaves (s.link p).state)) :=
  transition_forgetCosts s p (fun r => r.selfHail (fibrePort p) s.now) true

end

theorem LinkState.leaves_eq (old new : LinkState) : old.leaves new = (old.usable && !new.usable) := rfl

/-- Costs forgotten stay so through a recompute (R45). -/
theorem heard_of_hearsAs {t t0 : RouteComputer} {p : Port} (h : t.hearsAs t0 (some p)) :
    ∀ e ∈ t.entries, e.heard.get p = 16777215 := by
  obtain ⟨-, hall⟩ := h
  revert hall
  generalize t.entries = l
  generalize t0.entries = l0
  intro hall
  induction hall with
  | nil => simp
  | cons he _ ih =>
    rw [List.forall_mem_cons]
    refine ⟨?_, ih⟩
    rw [he.2 p, if_pos rfl]

theorem fibre_far (p : Port) (x y : Option Int) : (if fibrePort p = true then x else y) = if p = .p4 then x else y := by
  simp only [fibrePort, decide_eq_true_iff]

/-! ### HAILs of this station -/

theorem selfHail_record (r : LinkRecord) (p : Port) (now : Time) :
    r.selfHail (fibrePort p) now = (let r' : LinkRecord :=
      { r with neighbour := none, neighbourRole := none, neighbourState := none, lastHail := none, delay := none,
               outlierRun := 0, silence := none, far := if p = .p4 then r.far else none }
      if r.state = .drained ∨ r.state = .seeking then r'
      else { r' with state := .seeking, fadeCause := none, stateTimer := none, lastChange := now }) := by
  simp only [LinkRecord.selfHail, LinkRecord.forget, fibre_far, LinkRecord.toSeeking]
  cases h : r.state <;> rfl

theorem selfHail_state (r : LinkRecord) (p : Port) (now : Time) :
    (r.selfHail (fibrePort p) now).state = if r.state = .drained then .drained else .seeking := by
  rw [selfHail_record]
  cases h : r.state <;> simp

theorem selfHail_unusable (r : LinkRecord) (p : Port) (now : Time) :
    (r.selfHail (fibrePort p) now).state.usable = false := by
  rw [selfHail_state]
  split <;> rfl

theorem leaves_of_unusable (old : LinkState) {new : LinkState} (h : new.usable = false) :
    old.leaves new = old.usable ∧ new.leaves old = false := by
  simp only [LinkState.leaves_eq, h, Bool.not_false, Bool.and_true, Bool.false_and, and_self]

theorem fadeCounted_of_not_faded (old : LinkState) {new : LinkState} (h : new ≠ .faded) : fadeCounted old new = [] :=
  if_neg fun hf => h hf.1

/-- The HAIL of this station itself, counted, as one link event. -/
theorem selfHail_completion {s : State} {p : Port} {f : Frame} {a : Time} {h : Hail} (hrx : s.rx p = .hail a)
    (hcheck : checkHail f = some h) (hsender : h.sender = s.image.number) :
    execHailArrivalCompletion p f s = .next ((s.setRx p .idle).afterLinkEvent p
      ((s.link p).selfHail (fibrePort p) s.now) (s.rc.forget p) [.hailRx] true (s.link p).state.usable false) := by
  have hnew := selfHail_unusable (s.link p) p s.now
  have hfade : ((s.link p).selfHail (fibrePort p) s.now).state ≠ .faded := by
    rw [selfHail_state]
    split <;> exact nofun
  have hself : ((s.setRx p .idle).count (.port p .hailRx)).selfHail p
      = (s.setRx p .idle).afterLinkEvent p ((s.link p).selfHail (fibrePort p) s.now) (s.rc.forget p)
        (.hailRx :: fadeCounted (s.link p).state ((s.link p).selfHail (fibrePort p) s.now).state) true
        ((s.link p).state.leaves ((s.link p).selfHail (fibrePort p) s.now).state)
        (((s.link p).selfHail (fibrePort p) s.now).state.leaves (s.link p).state) := selfHail_event _ p
  obtain ⟨hleaves, henters⟩ := leaves_of_unusable (s.link p).state hnew
  rw [hleaves, henters, fadeCounted_of_not_faded _ hfade] at hself
  simp only [execHailArrivalCompletion, hrx, hcheck]
  exact congrArg Host.Outcome.next ((if_pos hsender).trans hself)

/-- Settles O21: the self-HAIL as one link event, after its count. -/
theorem selfHailForgetsTheNeighbour : Obligations.SelfHailForgetsTheNeighbour := by
  intro p f s a h hrx hcheck hsender
  obtain ⟨t, ht⟩ : ∃ t, (s.setRx p .idle).LinkEvent t p ((s.link p).selfHail (fibrePort p) s.now) (s.rc.forget p)
    [.hailRx] true (s.link p).state.usable false := ⟨_, ⟨rfl⟩⟩
  obtain ⟨hlink, hqueue⟩ := ht.at_port fun _ => ⟨rfl, selfHail_unusable _ _ _⟩
  have hhears := ht.hearsAs (RouteComputer.hearsAs_forget s.rc p)
  have hwork := ht.lineWork
  refine ⟨t, (selfHail_completion hrx hcheck hsender).trans (congrArg _ ht.eq.symm), hwork.frame,
    (hwork.rx p).trans (State.setRx_rx_self s p _), fun q hq =>
    ⟨(hwork.rx q).trans (State.setRx_rx_of_ne s _ hq), ht.link_of_ne hq⟩, ?_, heard_of_hearsAs hhears, hhears,
    ht.settled rfl, ?_, ?_, ?_, ?_⟩
  · rw [hlink]
    exact selfHail_record _ _ _
  · rw [hlink]
    exact ht.eq
  · rw [ht.counter rfl]
    exact (Statistics.counter_count _ _ _).trans (if_pos rfl)
  · rw [ht.counter rfl]
    exact (Statistics.counter_count _ _ _).trans (if_neg nofun)
  · have husable := LinkState.usable_iff (s.link p).state
    have hdown := ht.linkDown
    by_cases hu : (s.link p).state.usable = true
    · rw [if_pos hu] at hdown hqueue
      rw [if_pos (husable.1 hu)]
      exact ⟨hdown, hqueue⟩
    · rw [if_neg hu] at hdown hqueue
      rw [if_neg (mt husable.2 hu)]
      exact ⟨hdown, hqueue⟩

end Sys2Proof.Machine

/-! Status words, silence and the state timer's expiries (chapters 3 and 4). -/

namespace Sys2Proof.Machine

/-! ### Bytes side by side -/

theorem ofBytes_pair (a b : Byte) : ofBytes [a, b] = a.toNat * 256 + b.toNat := by
  simp [ofBytes]

theorem append_eq_ofBytes (a b : Byte) : (a ++ b : BitVec 16) = BitVec.ofNat 16 (ofBytes [a, b]) := by
  apply BitVec.eq_of_toNat_eq
  have hb := b.isLt
  have hv : a.toNat * 256 + b.toNat < 2 ^ 16 := by omega
  rw [BitVec.toNat_append, ofBytes_pair, BitVec.toNat_ofNat, Nat.mod_eq_of_lt hv, ← Nat.shiftLeft_add_eq_or_of_lt hb,
    Nat.shiftLeft_eq]

/-! ### Changes of link state -/

theorem LinkState.reroutes_iff (old new : LinkState) :
    old.reroutes new = true ↔ old ≠ new ∧ (old.usable = true ∨ new.usable = true) := by
  rw [LinkState.reroutes, Bool.and_eq_true, Bool.or_eq_true, decide_eq_true_iff, and_comm]

theorem LinkState.reroutes_of_leaves {old new : LinkState} (h : old.leaves new = true) :
    old.reroutes new = true ∧ new.usable = false := by
  rw [LinkState.leaves_eq, Bool.and_eq_true, Bool.not_eq_true'] at h
  obtain ⟨hold, hnew⟩ := h
  refine ⟨(LinkState.reroutes_iff _ _).2 ⟨fun e => ?_, .inl hold⟩, hnew⟩
  rw [e, hnew] at hold
  exact Bool.false_ne_true hold

theorem LinkState.enters_eq (old new : LinkState) : new.leaves old = (!old.usable && new.usable) :=
  Bool.and_comm _ _

theorem fadeCounted_counter (n : Statistics) (p : Port) (old new : LinkState) :
    ((fadeCounted old new).foldl (fun n c => n.count (.port p c)) n).counter (.port p .fadeCount)
      = if new = .faded ∧ old ≠ .faded then (n.counter (.port p .fadeCount)).bump
        else n.counter (.port p .fadeCount) := by
  unfold fadeCounted
  split
  · exact (Statistics.counter_count _ _ _).trans (if_pos rfl)
  · rfl

/-- An event that leaves the link state as it was reports, counts and recomputes nothing. -/
theorem afterLinkEvent_of_same_state (s : State) (p : Port) {r : LinkRecord} {old : LinkState} (h : r.state = old) :
    s.afterLinkEvent p r s.rc (fadeCounted old r.state) (old.reroutes r.state) (old.leaves r.state)
      (r.state.leaves old) = s.setLink p r := by
  subst h
  cases r.state <;> rfl

/-! ### Status words -/

theorem execModemStatusWord_of_discarded {p : Port} {word : List Byte} {s : State}
    (h : s.inService = false ∨ (s.link p).enabled = false ∨ p = .p4 ∨ word.length < 3) :
    execModemStatusWord p word s = .next s := by
  unfold execModemStatusWord
  split
  · next hfollowed =>
    rw [Bool.and_eq_true, State.follows_iff, fibrePort, Bool.not_eq_true', decide_eq_false_iff_not] at hfollowed
    obtain ⟨⟨hservice, henabled⟩, hp⟩ := hfollowed
    have hshort : word.length < 3 := by
      rcases h with h | h | h | h
      · exact absurd (h.symm.trans hservice) Bool.false_ne_true
      · exact absurd (h.symm.trans henabled) Bool.false_ne_true
      · exact absurd h hp
      · exact h
    have hnone : StatusWord.read word = none := by
      match word, hshort with
      | [], _ | [_], _ | [_, _], _ => rfl
    rw [hnone]
  · rfl

theorem execModemStatusWord_of_followed {p : Port} {b0 b1 b2 : Byte} {rest : List Byte} {s : State}
    (hservice : s.inService = true) (henabled : (s.link p).enabled = true) (hp : p ≠ .p4) :
    execModemStatusWord p (b0 :: b1 :: b2 :: rest) s = .next (s.statusWord p
      ⟨b0.getLsbD 7, BitVec.ofNat 3 b0.toNat, max (-240) (min 0 (b1 ++ b2 : BitVec 16).toInt)⟩) := by
  unfold execModemStatusWord
  rw [if_pos]
  · rw [append_eq_ofBytes]
    rfl
  · rw [Bool.and_eq_true, State.follows_iff, fibrePort, Bool.not_eq_true', decide_eq_false_iff_not]
    exact ⟨⟨hservice, henabled⟩, hp⟩

/-- Settles O27: the status word as one link event. -/
theorem statusWordIsTakenInFourSteps : Obligations.StatusWordIsTakenInFourSteps := by
  intro p word s
  refine ⟨execModemStatusWord_of_discarded, ?_⟩
  rintro b0 b1 b2 rest rfl hservice henabled hp
  obtain ⟨w, hw⟩ : ∃ w : StatusWord, w = ⟨b0.getLsbD 7, BitVec.ofNat 3 b0.toNat,
    max (-240) (min 0 (b1 ++ b2 : BitVec 16).toInt)⟩ := ⟨_, rfl⟩
  obtain ⟨r, hr⟩ : ∃ r, r = ((s.link p).word s.image w).evaluate s.image s.now false := ⟨_, rfl⟩
  have hevent : s.LinkEvent (s.statusWord p w) p r s.rc (fadeCounted (s.link p).state r.state)
      (decide (w.profile ≠ (s.link p).profile) || (s.link p).state.reroutes r.state)
      ((s.link p).state.leaves r.state) (r.state.leaves (s.link p).state) :=
    ⟨by rw [hr]; exact statusWord_event s p w⟩
  obtain ⟨hlink, -⟩ := hevent.at_port fun hl => by
    obtain ⟨hroutes, hnew⟩ := LinkState.reroutes_of_leaves hl
    exact ⟨by rw [hroutes, Bool.or_true], hnew⟩
  have hwork := hevent.lineWork
  refine ⟨s.statusWord p w, w, (s.link p).word s.image w, ?_, hwork.frame, by rw [hw], by rw [hw]; rfl, by rw [hw], rfl,
    hlink.trans hr, hwork.rx, fun q hq => hevent.link_of_ne hq, ?_⟩
  · rw [hw]
    exact execModemStatusWord_of_followed (rest := rest) hservice henabled hp
  rw [hlink]
  have hcalled : (w.profile ≠ (s.link p).profile ∨ (s.link p).state ≠ r.state
      ∧ ((s.link p).state.usable = true ∨ r.state.usable = true))
      ↔ (decide (w.profile ≠ (s.link p).profile) || (s.link p).state.reroutes r.state) = true := by
    rw [Bool.or_eq_true, decide_eq_true_iff, LinkState.reroutes_iff]
  refine ⟨fun h => hevent.settled (hcalled.1 h), hevent.hearsAs s.rc.hearsAs_refl, ⟨fun h => ?_, fun h1 h2 => ?_⟩,
    hevent.linkDown, ?_, ?_⟩
  · have heq := hevent.eq
    rw [hcalled.1 h, LinkState.enters_eq (s.link p).state] at heq
    exact heq
  · have hnot : (s.link p).state.reroutes r.state = false :=
      Bool.eq_false_iff.2 fun h => h2 ((LinkState.reroutes_iff _ _).1 h)
    have hleaves : (s.link p).state.leaves r.state = false :=
      Bool.eq_false_iff.2 fun h => Bool.false_ne_true (hnot.symm.trans (LinkState.reroutes_of_leaves h).1)
    have henters : r.state.leaves (s.link p).state = false := Bool.eq_false_iff.2 fun h => by
      have hroutes := (LinkState.reroutes_iff _ _).1 (LinkState.reroutes_of_leaves h).1
      exact h2 ⟨hroutes.1.symm, hroutes.2.symm⟩
    have heq := hevent.eq
    rw [hnot, hleaves, henters, decide_eq_false (not_not_intro h1)] at heq
    exact heq
  · rw [← LinkState.enters_eq]
    exact hevent.linkUp
  · rw [hevent.counter rfl]
    exact fadeCounted_counter _ _ _ _

/-! ### Silence -/

/-- A record at silence expiry before its state decides: the timer stopped, the far margin gone but on port 4 (R52). -/
def LinkRecord.silenced (r : LinkRecord) (p : Port) : LinkRecord :=
  { r with silence := none, far := if p = .p4 then r.far else none }

/-- A record fading with cause SILENT (R52). -/
def LinkRecord.fadedSilent (r : LinkRecord) (p : Port) (now : Time) : LinkRecord :=
  { r.silenced p with state := .faded, fadeCause := some .silent, stateTimer := none, lastChange := now }

section
variable {r : LinkRecord} (p : Port) (now : Time)

theorem silent_of_serving (h : r.state = .clear ∨ r.state = .degraded ∨ r.state = .hold ∨ r.state = .trial) :
    r.silent (fibrePort p) now = r.fadedSilent p now := by
  rcases h with h | h | h | h <;> simp only [LinkRecord.silent, h, fibre_far] <;> rfl

theorem silent_of_faded (h : r.state = .faded) :
    r.silent (fibrePort p) now = { r.silenced p with fadeCause := some .silent } := by
  simp only [LinkRecord.silent, LinkRecord.silenced, h, fibre_far]

theorem silent_of_seeking (h : r.state = .seeking ∨ r.state = .drained) :
    r.silent (fibrePort p) now = { r.silenced p with neighbour := none, neighbourRole := none, neighbourState := none,
                                                     lastHail := none, delay := none, outlierRun := 0 } := by
  have hfar : (if p = .p4 then (if p = .p4 then r.far else none) else none) = if p = .p4 then r.far else none := by
    split <;> rfl
  rcases h with h | h <;> simp only [LinkRecord.silent, h, fibre_far, LinkRecord.forget, hfar, LinkRecord.silenced]

end

theorem execSilenceExpiry_of_due {p : Port} {s : State} {x : Time} (hx : (s.link p).silence = some x)
    (hdue : s.image.silenceNs ≤ (s.now - x).toNat) : execSilenceExpiry p s = .next (s.silent p) :=
  congrArg Host.Outcome.next (if_pos ((LinkRecord.silenceExpired_iff _ _ _).2 ⟨x, hx, hdue⟩))

theorem silenceForgets_of_serving {x : LinkState}
    (h : x = .clear ∨ x = .degraded ∨ x = .hold ∨ x = .trial ∨ x = .faded) : x.silenceForgets = false := by
  rcases h with rfl | rfl | rfl | rfl | rfl <;> rfl

/-- Silence on a port that has no neighbour to forget. -/
theorem silent_of_not_forgetting {s : State} {p : Port} {r : LinkRecord}
    (hs : (s.link p).state.silenceForgets = false) (hr : (s.link p).silent (fibrePort p) s.now = r) :
    s.silent p = s.afterLinkEvent p r s.rc (fadeCounted (s.link p).state r.state)
      ((s.link p).state.reroutes r.state) ((s.link p).state.leaves r.state) (r.state.leaves (s.link p).state) := by
  have h := silent_event s p
  rw [hr, hs] at h
  exact h

/-- Settles O29: by the link state at the expiry. -/
theorem silenceExpiryFollowsTheLinkState : Obligations.SilenceExpiryFollowsTheLinkState := by
  intro p s
  refine ⟨fun h => ?_, fun x hx hdue => ?_⟩
  · show execSilenceExpiry p s = _
    refine congrArg Host.Outcome.next (if_neg ?_)
    rw [LinkRecord.silenceExpired_iff]
    rintro ⟨x, hx, hdue⟩
    exact Nat.not_lt.2 hdue (h x hx)
  have hexec : exec (.silenceExpiry p) s = .next (s.silent p) := execSilenceExpiry_of_due hx hdue
  rw [hexec]
  refine ⟨fun hs => ?_, fun hs => ?_, fun hs => ⟨s.silent p, rfl, ?_⟩, fun hs => ⟨s.silent p, rfl, ?_⟩⟩
  · replace hs : (s.link p).state = .faded := hs
    rw [silent_of_not_forgetting (silenceForgets_of_serving (by tauto)) (silent_of_faded p s.now hs)]
    exact congrArg Host.Outcome.next (afterLinkEvent_of_same_state s p rfl)
  · replace hs : (s.link p).state = .hold ∨ (s.link p).state = .trial := hs
    rw [silent_of_not_forgetting (silenceForgets_of_serving (by tauto)) (silent_of_serving p s.now (by tauto))]
    rcases hs with hs | hs <;> rw [hs] <;> rfl
  · replace hs : (s.link p).state = .clear ∨ (s.link p).state = .degraded := hs
    have hevent : s.LinkEvent (s.silent p) p ((s.link p).fadedSilent p s.now) s.rc [.fadeCount] true true false := by
      refine ⟨?_⟩
      rw [silent_of_not_forgetting (silenceForgets_of_serving (by tauto)) (silent_of_serving p s.now (by tauto))]
      rcases hs with hs | hs <;> rw [hs] <;> rfl
    obtain ⟨hlink, hqueue⟩ := hevent.at_port fun _ => ⟨rfl, rfl⟩
    have hwork := hevent.lineWork
    refine ⟨hwork.frame, hlink, hqueue, hevent.hearsAs s.rc.hearsAs_refl, hevent.settled rfl, hevent.eq, hwork.rx,
      fun q hq => hevent.link_of_ne hq, ?_, hevent.linkDown⟩
    rw [hevent.counter rfl]
    exact (Statistics.counter_count _ _ _).trans (if_pos rfl)
  · replace hs : (s.link p).state = .seeking ∨ (s.link p).state = .drained := hs
    have hevent : s.LinkEvent (s.silent p) p ((s.link p).silent (fibrePort p) s.now) (s.rc.forget p) [] true false
        false := by
      refine ⟨?_⟩
      have h := silent_event s p
      have hstate : ((s.link p).silent (fibrePort p) s.now).state = (s.link p).state := by
        rw [silent_of_seeking p s.now hs]
        rfl
      simp only [hstate] at h
      rw [h]
      rcases hs with hs | hs <;> rw [hs] <;> rfl
    have hhears := hevent.hearsAs (RouteComputer.hearsAs_forget s.rc p)
    obtain ⟨hlink, -⟩ := hevent.at_port nofun
    refine ⟨?_, heard_of_hearsAs hhears, hhears, hevent.settled rfl, ?_⟩
    · rw [hevent.eq, silent_of_seeking p s.now hs]
      rfl
    · rw [hlink]
      exact hevent.eq

/-! ### The state timer -/

/-- An expiry that leaves the port out of service, as it was. -/
theorem timerEvent_of_unusable {s : State} {p : Port} {r : LinkRecord}
    (hr : (s.link p).evaluate s.image s.now true = r) (hold : (s.link p).state.usable = false)
    (hnew : r.state.usable = false) : s.timerEvent p
      = s.afterLinkEvent p r s.rc (fadeCounted (s.link p).state r.state) false false false := by
  have h := timerEvent_event s p
  have hroutes : (s.link p).state.reroutes r.state = false := by
    rw [LinkState.reroutes, hold, hnew]
    rfl
  simp only [hr, hroutes, (leaves_of_unusable _ hnew).1, (leaves_of_unusable _ hold).1, hold, hnew] at h
  exact h

/-- What a timer's expiry gives on a port in HOLD or TRIAL, but for the onward step (R71). -/
theorem timerEvent_back {s : State} {p : Port} (hs : (s.link p).state = .hold ∨ (s.link p).state = .trial) :
    ((s.link p).neighbourState = some .drained →
      s.timerEvent p = s.setLink p ((s.link p).change s.now .seeking none none))
    ∧ ((s.link p).neighbourState ≠ some .drained → (s.link p).below s.image.restoreLevel = true →
      s.timerEvent p = (s.setLink p ((s.link p).fail s.image s.now)).count (.port p .fadeCount)) := by
  have hold : (s.link p).state.usable = false := by rcases hs with hs | hs <;> rw [hs] <;> rfl
  refine ⟨fun hd => ?_, fun hd hbelow => ?_⟩
  · rw [timerEvent_of_unusable (evaluate_of_serving_drained (by tauto) hd) hold rfl]
    rcases hs with hs | hs <;> rw [hs] <;> rfl
  · have heval : (s.link p).evaluate s.image s.now true = (s.link p).fail s.image s.now := by
      rcases hs with hs | hs
      · rw [evaluate_of_hold hd hs, if_pos hbelow]
      · rw [evaluate_of_trial hd hs, if_pos hbelow]
    rw [timerEvent_of_unusable heval hold rfl]
    rcases hs with hs | hs <;> rw [hs] <;> rfl

/-- The return to service at the trial timer's expiry, as one link event (R71, R72). -/
theorem timerEvent_return {s : State} {p : Port} (hs : (s.link p).state = .trial)
    (hd : (s.link p).neighbourState ≠ some .drained) (hbelow : (s.link p).below s.image.restoreLevel = false) :
    s.LinkEvent (s.timerEvent p) p ((s.link p).enterUsable s.image s.now) s.rc [] true false true := by
  refine ⟨?_⟩
  have h := timerEvent_event s p
  have heval : (s.link p).evaluate s.image s.now true = (s.link p).enterUsable s.image s.now := by
    rw [evaluate_of_trial hd hs, if_neg (by rw [hbelow]; exact nofun), if_pos rfl]
  rw [heval, hs] at h
  have hnew : ((s.link p).enterUsable s.image s.now).state = .clear
      ∨ ((s.link p).enterUsable s.image s.now).state = .degraded := by
    unfold LinkRecord.enterUsable
    cases (s.link p).atLeast s.image.degradeLevel
    · exact .inr rfl
    · exact .inl rfl
  refine h.trans ?_
  show s.afterLinkEvent p ((s.link p).enterUsable s.image s.now) s.rc
    (fadeCounted .trial ((s.link p).enterUsable s.image s.now).state)
    (LinkState.trial.reroutes ((s.link p).enterUsable s.image s.now).state)
    (LinkState.trial.leaves ((s.link p).enterUsable s.image s.now).state)
    (((s.link p).enterUsable s.image s.now).state.leaves .trial) = _
  rcases hnew with hnew | hnew <;> rw [hnew] <;> rfl

/-- Settles O30: by the timer that is due, and the state machine's step at it. -/
theorem stateTimerExpiriesAdvanceTheReturn : Obligations.StateTimerExpiriesAdvanceTheReturn := by
  intro p s
  have hdue (k : TimerKind) : (∃ x, (s.link p).stateTimer = some x ∧ x.kind = k ∧ x.duration ≤ (s.now - x.start).toNat)
      ↔ (s.link p).timerExpired k s.now = true := by
    rw [LinkRecord.timerExpired_iff]
    exact exists_congr fun x => and_congr_right fun _ => and_comm
  have hhold : exec (.holdExpiry p) s = .next (if (s.link p).timerExpired .hold s.now then s.timerEvent p else s) := rfl
  have htrial : exec (.trialExpiry p) s = .next (if (s.link p).timerExpired .trial s.now then s.timerEvent p else s) :=
    rfl
  have hsettle : exec (.settleExpiry p) s
      = .next (if (s.link p).timerExpired .settle s.now then s.settleEvent p else s) := rfl
  simp only [hdue, hhold, htrial, hsettle]
  refine ⟨fun h => by rw [if_neg h], fun h => by rw [if_neg h], fun h => by rw [if_neg h], fun hd hs => ?_,
    fun hd hs => ?_, fun hd => ?_⟩
  · obtain ⟨hdrained, hfail⟩ := timerEvent_back (s := s) (p := p) (.inl hs)
    rw [if_pos hd]
    refine ⟨fun hn => congrArg _ (hdrained hn), fun hn => ⟨fun hb => congrArg _ (hfail hn hb), fun hb => congrArg _ ?_⟩⟩
    have heval : (s.link p).evaluate s.image s.now true
        = (s.link p).change s.now .trial none (some ⟨.trial, s.now, s.image.trialNs⟩) := by
      rw [evaluate_of_hold hn hs, if_neg (by rw [hb]; exact nofun), if_pos rfl]
    rw [timerEvent_of_unusable heval (by rw [hs]; rfl) rfl, hs]
    rfl
  · obtain ⟨hdrained, hfail⟩ := timerEvent_back (s := s) (p := p) (.inr hs)
    rw [if_pos hd]
    refine ⟨fun hn => congrArg _ (hdrained hn), fun hn => ⟨fun hb => congrArg _ (hfail hn hb), fun hb =>
      ⟨s.timerEvent p, rfl, ?_⟩⟩⟩
    have hevent := timerEvent_return hs hn hb
    obtain ⟨hlink, -⟩ := hevent.at_port nofun
    refine ⟨?_, hevent.hearsAs s.rc.hearsAs_refl, hevent.settled rfl, ?_, hevent.linkUp⟩
    · rw [hevent.eq]
      rfl
    · rw [hlink]
      exact hevent.eq
  · rw [if_pos hd]
    obtain ⟨r, hr⟩ : ∃ r, r = ((s.link p).settle s.image).evaluate s.image s.now false := ⟨_, rfl⟩
    have hevent : s.LinkEvent (s.settleEvent p) p r s.rc (fadeCounted (s.link p).state r.state)
        ((s.link p).state.reroutes r.state) ((s.link p).state.leaves r.state) (r.state.leaves (s.link p).state) :=
      ⟨by rw [hr]; exact settleEvent_event s p⟩
    obtain ⟨hlink, -⟩ := hevent.at_port LinkState.reroutes_of_leaves
    have hwork := hevent.lineWork
    refine ⟨s.settleEvent p, rfl, hwork.frame, hlink.trans hr, hwork.rx, fun q hq => hevent.link_of_ne hq,
      hevent.hearsAs s.rc.hearsAs_refl, ?_⟩
    rw [hlink]
    have hnotRouted (h : ¬ ((s.link p).state ≠ r.state ∧ ((s.link p).state.usable = true ∨ r.state.usable = true))) :
        s.settleEvent p = s.afterLinkEvent p r s.rc (fadeCounted (s.link p).state r.state) false false false := by
      have hnot : (s.link p).state.reroutes r.state = false :=
        Bool.eq_false_iff.2 fun hroutes => h ((LinkState.reroutes_iff _ _).1 hroutes)
      have hleaves : (s.link p).state.leaves r.state = false :=
        Bool.eq_false_iff.2 fun hl => Bool.false_ne_true (hnot.symm.trans (LinkState.reroutes_of_leaves hl).1)
      have henters : r.state.leaves (s.link p).state = false := Bool.eq_false_iff.2 fun hl => by
        have hroutes := (LinkState.reroutes_iff _ _).1 (LinkState.reroutes_of_leaves hl).1
        exact h ⟨hroutes.1.symm, hroutes.2.symm⟩
      have heq := hevent.eq
      rw [hnot, hleaves, henters] at heq
      exact heq
    refine ⟨fun h => ?_, hnotRouted, fun h => ?_⟩
    · have hroutes := (LinkState.reroutes_iff _ _).2 h
      have heq := hevent.eq
      rw [hroutes, LinkState.enters_eq (s.link p).state] at heq
      exact ⟨hevent.settled hroutes, heq⟩
    · exact hevent.eq.trans (afterLinkEvent_of_same_state s p h)

end Sys2Proof.Machine

/-! Actions on ports: DRAIN and UNDRAIN, the schedule match, and the commands FORCE, ARM_SCHEDULE, DISARM, TIME_STEP and
TIME_TRIM (chapters 2 and 4). -/

namespace Sys2Proof.Machine

/-! ### One action -/

section
variable {r : LinkRecord} (now : Time)

theorem drain_of_still (h : r.state = .off ∨ r.state = .drained) : r.act now .drain = r := by
  rcases h with h | h <;> simp only [LinkRecord.act, h]

theorem drain_of_other (h1 : r.state ≠ .off) (h2 : r.state ≠ .drained) :
    r.act now .drain = r.change now .drained none none := by
  unfold LinkRecord.act
  split <;> simp_all

theorem undrain_of_out (h : r.state = .drained ∨ r.state = .faded ∨ r.state = .hold ∨ r.state = .trial) :
    r.act now .undrain = r.change now .seeking none none := by
  rcases h with h | h | h | h <;> simp only [LinkRecord.act, h]

theorem undrain_of_other (h : r.state = .off ∨ r.state = .seeking ∨ r.state = .clear ∨ r.state = .degraded) :
    r.act now .undrain = r := by
  rcases h with h | h | h | h <;> simp only [LinkRecord.act, h]

theorem act_setHail (a : Action) (d : Bool) (n : Byte) :
    ({ r with hailDue := d, lastSent := n } : LinkRecord).act now a
      = { r.act now a with hailDue := d, lastSent := n } := by
  cases a <;> simp only [LinkRecord.act] <;> split <;> rfl

theorem act_hailDue (a : Action) : (r.act now a).hailDue = r.hailDue := by
  cases a <;> simp only [LinkRecord.act] <;> split <;> rfl

/-- An action on a record whose HAIL departed is the action on the record as it was, its HAIL departed. -/
theorem act_hailedFrom {r' : LinkRecord} (h : r'.hailedFrom r) (a : Action) :
    (r'.act now a).hailedFrom (r.act now a) := by
  obtain ⟨hframe, hstill⟩ := h
  refine ⟨?_, fun hd => ?_⟩
  · rw [hframe, act_setHail]
  · rw [act_hailDue] at hd
    rw [hstill hd]

end

/-! ### One action on the state -/

theorem settleRoutes_of_leaves {s : State} {p : Port} {old : LinkState} (h : old.leaves (s.link p).state = true)
    (always : Bool) : s.settleRoutes p old always = s.recompute.flush p := by
  have hroutes := (LinkState.reroutes_of_leaves h).1
  rw [State.settleRoutes, hroutes, Bool.or_true]
  exact if_pos h

theorem settleRoutes_of_not_rerouted {s : State} {p : Port} {old : LinkState}
    (h : old.reroutes (s.link p).state = false) : s.settleRoutes p old false = s := by
  have hleaves : old.leaves (s.link p).state = false :=
    Bool.eq_false_iff.2 fun hl => Bool.false_ne_true (h.symm.trans (LinkState.reroutes_of_leaves hl).1)
  rw [State.settleRoutes, h, Bool.or_false]
  exact if_neg (by rw [if_neg nofun, hleaves]; exact nofun)

theorem act_drains {s : State} {p : Port} (h : (s.link p).state = .clear ∨ (s.link p).state = .degraded) :
    s.act (p, .drain) = (s.setLink p ((s.link p).act s.now .drain)).recompute.flush p := by
  refine settleRoutes_of_leaves ?_ false
  rw [State.setLink_link_self]
  rcases h with h | h
  · rw [drain_of_other s.now (by rw [h]; exact nofun) (by rw [h]; exact nofun), h]
    rfl
  · rw [drain_of_other s.now (by rw [h]; exact nofun) (by rw [h]; exact nofun), h]
    rfl

theorem act_quietly {s : State} {p : Port} {a : Action}
    (h : (s.link p).state ≠ .clear ∧ (s.link p).state ≠ .degraded ∨ a = .undrain) :
    s.act (p, a) = s.setLink p ((s.link p).act s.now a) := by
  refine settleRoutes_of_not_rerouted ?_
  rw [State.setLink_link_self]
  generalize s.link p = r at h ⊢
  generalize s.now = now
  cases a with
  | undrain => cases hs : r.state <;> simp only [LinkRecord.act, hs] <;> rfl
  | drain =>
    obtain ⟨h1, h2⟩ := h.resolve_right nofun
    cases hs : r.state <;> simp only [LinkRecord.act, hs] <;> first | rfl | exact absurd hs h1 | exact absurd hs h2

theorem act_leaves_of_reroutes {r : LinkRecord} {now : Time} {a : Action}
    (h : r.state.reroutes (r.act now a).state = true) : r.state.leaves (r.act now a).state = true := by
  revert h
  cases a <;> cases hs : r.state <;> simp only [LinkRecord.act, hs] <;> exact id

/-- Everything an action on a port can do to the state (R76, R78). -/
theorem act_cases (s : State) (p : Port) (a : Action) :
    s.act (p, a) = (s.setLink p ((s.link p).act s.now a)).recompute.flush p
    ∨ (s.link p).state.reroutes ((s.link p).act s.now a).state = false
      ∧ s.act (p, a) = s.setLink p ((s.link p).act s.now a) := by
  have hlink : (s.setLink p ((s.link p).act s.now a)).link p = (s.link p).act s.now a := State.setLink_link_self _ _ _
  cases hroutes : (s.link p).state.reroutes ((s.link p).act s.now a).state with
  | true => exact .inl (settleRoutes_of_leaves (by rw [hlink]; exact act_leaves_of_reroutes hroutes) false)
  | false => exact .inr ⟨rfl, settleRoutes_of_not_rerouted (by rw [hlink]; exact hroutes)⟩

theorem act_routeWork (s : State) (p : Port) (a : Action) : s.snu.RouteWork (s.act (p, a)).snu := by
  rcases act_cases s p a with h | ⟨-, h⟩ <;> rw [h]
  · exact (recompute_routeWork (s.setLink p ((s.link p).act s.now a))).trans (flush_routeWork _ p)
  · exact .refl

theorem act_hearsAs (s : State) (p : Port) (a : Action) : (s.act (p, a)).rc.hearsAs s.rc none := by
  rcases act_cases s p a with h | ⟨-, h⟩ <;> rw [h]
  · rw [(EgressWork.flush _ p).rc]
    exact RouteComputer.hearsAs_recompute s.rc.hearsAs_refl _ _
  · exact s.rc.hearsAs_refl

theorem act_keeps_terms (r : LinkRecord) (now : Time) (a : Action) :
    (r.act now a).delay = r.delay ∧ (r.act now a).profile = r.profile := by
  cases a <;> (simp only [LinkRecord.act]; split <;> exact ⟨rfl, rfl⟩)

theorem act_settled {s : State} (p : Port) (a : Action) (hs : s.costsSettled) : (s.act (p, a)).costsSettled := by
  rcases act_cases s p a with h | ⟨hroutes, h⟩ <;> rw [h]
  · exact (EgressWork.flush _ p).costsSettled (State.recompute_settled _)
  · obtain ⟨hdelay, hprofile⟩ := act_keeps_terms (s.link p) s.now a
    refine costsSettled_of_terms hs rfl rfl fun q => ?_
    by_cases hq : q = p
    · subst hq
      rw [State.setLink_link_self]
      exact portTerm_of_not_rerouted hroutes hdelay hprofile
    · rw [State.setLink_link_of_ne _ _ hq]

/-! ### Actions one after the other -/

theorem actAll_routeWork (l : List (Port × Action)) (s : State) : s.snu.RouteWork (s.actAll l).snu := by
  induction l generalizing s with
  | nil => exact .refl
  | cons a l ih => exact (act_routeWork s a.1 a.2).trans (ih _)

theorem actAll_hearsAs (l : List (Port × Action)) (s : State) : (s.actAll l).rc.hearsAs s.rc none := by
  induction l generalizing s with
  | nil => exact s.rc.hearsAs_refl
  | cons a l ih => exact RouteComputer.hearsAs_trans (ih _) (act_hearsAs s a.1 a.2)

theorem actAll_settled (l : List (Port × Action)) {s : State} (hs : s.costsSettled) : (s.actAll l).costsSettled := by
  induction l generalizing s with
  | nil => exact hs
  | cons a l ih => exact ih (act_settled a.1 a.2 hs)

/-- A port that no action names keeps its record, but for a HAIL that departed. -/
theorem actAll_link_of_unnamed {l : List (Port × Action)} {q : Port} (h : q ∉ l.map Prod.fst) (s : State) :
    ((s.actAll l).link q).hailedFrom (s.link q) := by
  induction l generalizing s with
  | nil => exact LinkRecord.hailedFrom_refl _
  | cons a l ih =>
    rw [List.map_cons, List.mem_cons, not_or] at h
    obtain ⟨hq, hl⟩ := h
    have hact := s.act_link a q
    rw [if_neg hq] at hact
    exact LinkRecord.hailedFrom_trans hact (ih hl _)

/-- A port that one action names has the action's record, but for a HAIL that departed. -/
theorem actAll_link_of_named {l : List (Port × Action)} (hl : (l.map Prod.fst).Nodup) {q : Port} {a : Action}
    (h : (q, a) ∈ l) (s : State) : ((s.actAll l).link q).hailedFrom ((s.link q).act s.now a) := by
  induction l generalizing s with
  | nil => cases h
  | cons x l ih =>
    rw [List.map_cons, List.nodup_cons] at hl
    obtain ⟨hx, hl⟩ := hl
    have hact := s.act_link x q
    rcases List.mem_cons.1 h with rfl | h
    · rw [if_pos rfl] at hact
      exact LinkRecord.hailedFrom_trans hact (actAll_link_of_unnamed hx _)
    · have hq : q ≠ x.1 := fun e => hx (e ▸ List.mem_map.2 ⟨(q, a), h, rfl⟩)
      rw [if_neg hq] at hact
      have hnow : (s.act x).now = s.now := congrArg TimeUnit.ic (LineWork.act s x).tu
      have hrest := ih hl h (s.act x)
      rw [hnow] at hrest
      exact LinkRecord.hailedFrom_trans (act_hailedFrom s.now hact a) hrest

theorem portsOf_nodup (mask : BitVec 5) : (portsOf mask).Nodup :=
  List.Nodup.filter _ (by decide)

theorem mem_portsOf (mask : BitVec 5) (q : Port) : q ∈ portsOf mask ↔ mask.getLsbD q.toNat = true := by
  simp only [portsOf, List.mem_filter, Port.mem_all, true_and, named]

/-! ### The schedule match -/

theorem scheduleEvent_of_due {s : State} (harmed : s.tu.schedule.armed = true)
    (hdue : (s.tu.st - s.tu.schedule.target).toNat < 2 ^ 47) : s.scheduleEvent
      = ({ s with tu := s.tu.disarm }.actAll ((portsOf s.tu.schedule.mask).map
          (fun p => (p, s.tu.schedule.action)))).raiseBit .timeEvent 1 :=
  if_pos ((TimeUnit.scheduleDue_iff _).2 ⟨harmed, hdue⟩)

/-- Settles O38: one action by the state it meets, and the match as a fold of them. -/
theorem scheduleMatchActsOnItsPorts : Obligations.ScheduleMatchActsOnItsPorts := by
  refine ⟨fun r now => ⟨drain_of_still now, drain_of_other now, undrain_of_out now, undrain_of_other now⟩,
    fun s p a => ⟨fun h ha => ?_, fun h => act_quietly h⟩, fun s => ⟨fun h => ?_, fun harmed hdue => ?_⟩⟩
  · subst ha
    exact act_drains h
  · refine congrArg Host.Outcome.next (if_neg ?_)
    rw [TimeUnit.scheduleDue_iff]
    rintro ⟨harmed, hdue⟩
    rcases h with h | h
    · exact Bool.false_ne_true (h.symm.trans harmed)
    · exact Nat.not_lt.2 h hdue
  · obtain ⟨t0, ht0⟩ : ∃ t0 : State, t0 = { s with tu := s.tu.disarm } := ⟨_, rfl⟩
    obtain ⟨l, hl⟩ : ∃ l, l = (portsOf s.tu.schedule.mask).map (fun p => (p, s.tu.schedule.action)) := ⟨_, rfl⟩
    have hports : l.map Prod.fst = portsOf s.tu.schedule.mask := by
      rw [hl, List.map_map]
      exact List.map_id _
    have hwork : LineWork t0 ((t0.actAll l).raiseBit .timeEvent 1) :=
      (LineWork.actAll l t0).trans (.of_tables _ _ (t0.actAll l).rc _)
    have hsnu := actAll_routeWork l t0
    have hnotice {k : NoticeKind} (hk : NoticeKind.ofRoutes k = false) (hwrap : k ≠ .countWrap) :
        (t0.actAll l).snu.notices.get k = s.snu.notices.get k := by
      rw [hsnu.notice hk hwrap, ht0]
    refine ⟨(t0.actAll l).raiseBit .timeEvent 1, ?_, ?_, ?_, fun q => ⟨?_, ?_⟩, ?_, fun hcosts => ?_, ?_, ?_, ?_,
      fun q => ?_⟩
    · rw [ht0, hl]
      exact congrArg Host.Outcome.next (scheduleEvent_of_due harmed hdue)
    · rw [ht0] at hwork ⊢
      exact hwork.frame
    · rw [ht0, hl]
      rfl
    · rw [hwork.rx q, ht0]
      rfl
    · have hlink : t0.link q = s.link q := by rw [ht0]; rfl
      have hnow : t0.now = s.now := by rw [ht0]; rfl
      by_cases hq : s.tu.schedule.mask.getLsbD q.toNat = true
      · rw [if_pos hq, ← hlink, ← hnow]
        refine actAll_link_of_named (by rw [hports]; exact portsOf_nodup _) ?_ t0
        rw [hl]
        exact List.mem_map.2 ⟨q, (mem_portsOf _ q).2 hq, rfl⟩
      · rw [if_neg hq, ← hlink]
        exact actAll_link_of_unnamed (by rw [hports, mem_portsOf]; exact hq) t0
    · have h := actAll_hearsAs l t0
      rw [ht0] at h ⊢
      exact h
    · have h0 : t0.costsSettled := by rw [ht0]; exact hcosts
      exact actAll_settled l h0
    · exact congrArg (Notice.raiseBit · 1) (hnotice (k := .timeEvent) rfl nofun)
    · exact hnotice (k := .linkDown) rfl nofun
    · exact hnotice (k := .linkUp) rfl nofun
    · have h : (t0.actAll l).snu.counter (.port q .fadeCount) = t0.snu.counter (.port q .fadeCount) :=
        hsnu.counter rfl
      rw [ht0] at h ⊢
      exact h

/-! ### FORCE, ARM_SCHEDULE and DISARM -/

/-- The action that an accepted byte of FORCE names (R76). -/
def forcedAction (b : Byte) : Action := if b = 2 then .undrain else .drain

theorem forceAction?_eq (b : Byte) :
    forceAction? b = if b = 0 ∨ 4 ≤ b.toNat then none else some (forcedAction b) := by
  rw [forceAction?]
  split
  · next h =>
    obtain rfl : b = 1 := BitVec.eq_of_toNat_eq h
    rfl
  · next h =>
    obtain rfl : b = 2 := BitVec.eq_of_toNat_eq h
    rfl
  · next h =>
    obtain rfl : b = 3 := BitVec.eq_of_toNat_eq h
    rfl
  · next h1 h2 h3 =>
    have h1 : b.toNat ≠ 1 := h1
    have h2 : b.toNat ≠ 2 := h2
    have h3 : b.toNat ≠ 3 := h3
    rw [if_pos]
    by_cases h0 : b.toNat = 0
    · exact .inl (BitVec.eq_of_toNat_eq h0)
    · exact .inr (by omega)

/-- FORCE's list part is taken whole, or refused for a missing byte or one that names no action (R76). -/
theorem forceActions?_eq : ∀ (ports : List Port) (bytes : List Byte),
    ((bytes.length < ports.length ∨ ∃ i < ports.length, bytes.getD i 0 = 0 ∨ 4 ≤ (bytes.getD i 0).toNat) →
      forceActions? ports bytes = none)
    ∧ (¬ (bytes.length < ports.length ∨ ∃ i < ports.length, bytes.getD i 0 = 0 ∨ 4 ≤ (bytes.getD i 0).toNat) →
      forceActions? ports bytes = some ((ports.zip bytes).map (fun x => (x.1, forcedAction x.2))))
  | [], bytes => ⟨by simp, fun _ => rfl⟩
  | p :: ps, [] => ⟨fun _ => rfl, fun h => absurd (.inl (Nat.succ_pos _)) h⟩
  | p :: ps, b :: bs => by
    obtain ⟨hbad, hgood⟩ := forceActions?_eq ps bs
    simp only [List.length_cons, Nat.add_lt_add_iff_right, Nat.exists_lt_succ_left, List.getD_cons_zero,
      List.getD_cons_succ, forceActions?, forceAction?_eq]
    by_cases hb : b = 0 ∨ 4 ≤ b.toNat
    · rw [if_pos hb]
      exact ⟨fun _ => rfl, fun h => absurd (.inr (.inl hb)) h⟩
    · rw [if_neg hb]
      refine ⟨fun h => ?_, fun h => ?_⟩
      · rw [hbad (h.imp_right fun h => h.resolve_left hb)]
      · rw [hgood fun h' => h (h'.imp_right .inr)]
        rfl

theorem scheduleAction?_eq (b : Byte) : (b ≠ 1 → b ≠ 2 → scheduleAction? b = none)
    ∧ (b = 1 ∨ b = 2 → scheduleAction? b = some (if b = 1 then .drain else .undrain)) := by
  refine ⟨fun h1 h2 => ?_, ?_⟩
  · rw [scheduleAction?]
    split
    · next h => exact absurd (BitVec.eq_of_toNat_eq h) h1
    · next h => exact absurd (BitVec.eq_of_toNat_eq h) h2
    · rfl
  · rintro (rfl | rfl) <;> rfl

theorem serviceCommand_of_service {s : State} (h : s.inService = true) (code : Byte) (f : State → State) :
    s.serviceCommand code f = f s := if_pos h

theorem serviceCommand_of_config {s : State} (h : s.inService = false) (code : Byte) (f : State → State) :
    s.serviceCommand code f = s.setResult ⟨0, code⟩ .refusedState none :=
  if_neg (Bool.eq_false_iff.1 h)

/-- Settles O44: the list part of FORCE, then its actions; ARM_SCHEDULE by its action; DISARM. -/
theorem forceAndScheduleCommandsAct : Obligations.ForceAndScheduleCommandsAct := by
  intro dev s haddr hservice
  refine ⟨?_, fun target action mask => ⟨fun h1 h2 => ?_, fun h => ⟨_, rfl, ?_⟩⟩, fun mask actions =>
    ⟨fun hbad => ?_, fun hgood => ?_⟩⟩
  · show execDisarm dev s = _
    rw [execDisarm, State.transfer_of_addressed haddr, serviceCommand_of_service hservice]
    rfl
  · show execArmSchedule dev target action mask s = _
    rw [execArmSchedule, State.transfer_of_addressed haddr, serviceCommand_of_service hservice]
    simp only [(scheduleAction?_eq action).1 h1 h2]
    rfl
  · show execArmSchedule dev target action mask s = _
    rw [execArmSchedule, State.transfer_of_addressed haddr, serviceCommand_of_service hservice]
    simp only [(scheduleAction?_eq action).2 h]
    rfl
  · show execForce dev mask actions s = _
    rw [execForce, State.transfer_of_addressed haddr, serviceCommand_of_service hservice]
    simp only [(forceActions?_eq _ _).1 hbad]
    rfl
  obtain ⟨l, hl⟩ : ∃ l, l = ((portsOf mask).zip actions).map (fun x => (x.1, forcedAction x.2)) := ⟨_, rfl⟩
  have hroom : (portsOf mask).length ≤ actions.length := Nat.not_lt.1 fun h => hgood (.inl h)
  have hports : l.map Prod.fst = portsOf mask := by
    rw [hl, List.map_map]
    exact List.map_fst_zip hroom
  have hexec : exec (.force dev mask actions) s = .next ((s.actAll l).setResult ⟨0, 3⟩ .accepted none) := by
    show execForce dev mask actions s = _
    rw [execForce, State.transfer_of_addressed haddr, serviceCommand_of_service hservice]
    simp only [(forceActions?_eq _ _).2 hgood]
    rw [hl]
    rfl
  have hwork := LineWork.actAll l s
  have hsnu := actAll_routeWork l s
  refine ⟨_, hexec, ?_, by rw [hl]; rfl, hsnu.notice (k := .linkDown) rfl nofun, hsnu.notice (k := .linkUp) rfl nofun,
    actAll_hearsAs l s, fun hcosts => actAll_settled l hcosts, fun q => ⟨hwork.rx q, hsnu.counter rfl, fun hq => ?_,
      fun i hi => ?_⟩⟩
  · have hframe := hwork.frame
    generalize s.actAll l = t at hframe ⊢
    rw [hframe]
    rfl
  · refine actAll_link_of_unnamed ?_ s
    rw [hports, mem_portsOf, hq]
    exact Bool.false_ne_true
  · refine actAll_link_of_named (by rw [hports]; exact portsOf_nodup mask) ?_ s
    obtain ⟨hi, hq⟩ := List.getElem?_eq_some_iff.1 hi
    have hget : actions.getD i 0 = actions[i]'(by omega) := by
      rw [List.getD_eq_getElem?_getD, List.getElem?_eq_getElem (by omega)]
      rfl
    rw [hl, List.mem_map]
    refine ⟨(q, actions.getD i 0), ?_, rfl⟩
    rw [hget, ← hq, ← List.getElem_zip (h := by rw [List.length_zip]; omega)]
    exact List.getElem_mem _

/-! ### TIME_TRIM and TIME_STEP -/

theorem step_st (t : TimeUnit) (x : Int) :
    ((t.step x).st.toNat : Int) = (t.st.toNat + x) % 281474976710656 := by
  simp only [TimeUnit.step, BitVec.toNat_add, BitVec.toNat_ofInt]
  have hst := t.st.isLt
  push_cast
  rw [Int.toNat_of_nonneg (Int.emod_nonneg _ (by decide))]
  omega

theorem execTimeTrim_of_addressed {dev : BitVec 2} {s : State} (haddr : s.addressed dev) (x : BitVec 32) :
    execTimeTrim dev x s = .next (State.setResult
      { s with tu := { s.tu with trim := if s.resetHeld = true then s.tu.trim else clampTrim x.toInt } } ⟨0, 7⟩
      (if clampTrim x.toInt = x.toInt then .accepted else .acceptedClamped) none) := by
  rw [execTimeTrim, State.transfer_of_addressed haddr]
  simp only [State.adjustTime]
  by_cases h : s.resetHeld = true
  · rw [if_pos h, if_pos h]
    rfl
  · rw [if_neg h, if_neg h]
    rfl

/-- Settles O45: the trim by its limits, the step by its own. -/
theorem timeCommandsTrimAndStep : Obligations.TimeCommandsTrimAndStep := by
  intro dev s x haddr
  have htrim : exec (.timeTrim dev x) s = execTimeTrim dev x s := rfl
  have hstep : exec (.timeStep dev x) s = execTimeStep dev x s := rfl
  rw [htrim, hstep, execTimeTrim_of_addressed haddr, execTimeStep, State.transfer_of_addressed haddr]
  have hclamp : clampTrim x.toInt = max (-200000) (min 200000 x.toInt) := rfl
  refine ⟨⟨fun hlow hhigh => ?_, fun hhigh => ?_, fun hlow => ?_⟩, fun hout => ?_, fun hlow hhigh =>
    ⟨(s.adjustTime (fun t => t.step x.toInt)).tu.st, (s.adjustTime (fun t => t.step x.toInt)).scheduleEvent, fun hrun => ?_,
      fun hheld => ?_, ?_, ?_⟩⟩
  · have h : clampTrim x.toInt = x.toInt := by rw [hclamp]; omega
    rw [if_pos h, h]
  · have h : clampTrim x.toInt = 200000 := by rw [hclamp]; omega
    have hne : clampTrim x.toInt ≠ x.toInt := by omega
    rw [if_neg hne, h]
  · have h : clampTrim x.toInt = -200000 := by rw [hclamp]; omega
    have hne : clampTrim x.toInt ≠ x.toInt := by omega
    rw [if_neg hne, h]
  · rw [if_pos (by unfold stepLimit; rw [lt_abs]; omega)]
    rfl
  · rw [State.adjustTime, hrun]
    exact step_st s.tu x.toInt
  · rw [State.adjustTime, hheld]
    rfl
  · refine congrArg (fun t : State => Host.Outcome.next t.scheduleEvent) ?_
    unfold State.adjustTime
    split <;> rfl
  · rw [if_neg (by unfold stepLimit; rw [lt_abs]; omega)]
    rfl

end Sys2Proof.Machine


/-! Fields of a record of bytes, and the tests on a frame as it arrives (chapter 1, section 1.5; chapter 11, section
11.1): what a route header, a HAIL and a cost vector are read as, field by field. -/

namespace Sys2Proof.Machine

/-! ### Codings of names -/

theorem BitVec.eq_ofNat_iff {w n : Nat} (x : BitVec w) (h : n < 2 ^ w) : x = BitVec.ofNat w n ↔ x.toNat = n := by
  rw [← BitVec.toNat_inj, BitVec.toNat_ofNat, Nat.mod_eq_of_lt h]

@[simp] theorem Urgency.toNat_ofBits (n : Nat) : (Urgency.ofBits n).toNat = n % 4 := by
  unfold Urgency.ofBits
  split <;> simp only [Urgency.toNat]
  case h_4 h0 h1 h2 =>
    have h0 : n % 4 ≠ 0 := h0
    have h1 : n % 4 ≠ 1 := h1
    have h2 : n % 4 ≠ 2 := h2
    omega
  all_goals omega

theorem Urgency.ofBits_toNat (u : Urgency) : Urgency.ofBits u.toNat = u := by
  cases u <;> rfl

theorem Urgency.toNat_injective : Function.Injective Urgency.toNat :=
  Function.LeftInverse.injective Urgency.ofBits_toNat

theorem Urgency.eq_ofBits_iff (u : Urgency) (n : Nat) : u = .ofBits n ↔ u.toNat = n % 4 := by
  rw [← Urgency.toNat_injective.eq_iff, Urgency.toNat_ofBits]

@[simp] theorem LinkState.toNat_ofBits (n : Nat) : (LinkState.ofBits n).toNat = n % 8 := by
  unfold LinkState.ofBits
  have hn : n % 8 < 8 := Nat.mod_lt _ (by norm_num)
  generalize n % 8 = k at *
  interval_cases k <;> rfl

theorem LinkState.ofBits_toNat (l : LinkState) : LinkState.ofBits l.toNat = l := by
  cases l <;> rfl

theorem LinkState.toNat_injective : Function.Injective LinkState.toNat :=
  Function.LeftInverse.injective LinkState.ofBits_toNat

theorem LinkState.eq_ofBits_iff (l : LinkState) (n : Nat) : l = .ofBits n ↔ l.toNat = n % 8 := by
  rw [← LinkState.toNat_injective.eq_iff, LinkState.toNat_ofBits]

theorem portOf?_eq_some_iff (n : Nat) (p : Port) : portOf? n = some p ↔ p.toNat = n := by
  match n with
  | 0 | 1 | 2 | 3 | 4 => cases p <;> decide
  | n + 5 => cases p <;> simp [portOf?, Port.toNat]

theorem Role.ofByte?_eq_some_iff {n : Nat} (hn : n < 256) (r : Role) :
    Role.ofByte? (BitVec.ofNat 8 n) = some r ↔ r.toNat = n := by
  rw [Role.ofByte?, BitVec.toNat_ofNat, Nat.mod_eq_of_lt hn]
  match n with
  | 0 | 1 | 2 => cases r <;> decide
  | n + 3 => cases r <;> simp [Role.toNat]

theorem Kind.ofBits?_eq_some_iff {n : Nat} (hn : n < 4) (k : Kind) :
    Kind.ofBits? n = some k ↔ n = 1 ∧ k = .flood ∨ n = 2 ∧ k = .aimed := by
  rw [Kind.ofBits?, Nat.mod_eq_of_lt hn]
  split <;> cases k <;> simp <;> omega

theorem signedByte_eq_toInt {n : Nat} (hn : n < 256) : signedByte n = (BitVec.ofNat 8 n).toInt := by
  rw [BitVec.toInt_eq_toNat_cond, BitVec.toNat_ofNat, Nat.mod_eq_of_lt hn, signedByte]
  split <;> split <;> omega

/-! ### Traffic frames -/

theorem checkTraffic_eq_some_iff (f : Frame) (h : RouteHeader) (payload : List Byte) :
    checkTraffic f = some (h, payload) ↔
      f.aborted = false ∧ crc32 f.body = f.check ∧ RouteHeader.read f.body = some h ∧ payload = f.body.drop 24
        ∧ h.passes payload = true := by
  unfold checkTraffic
  split_ifs with ha hc
  · simp [ha]
  · simp [hc]
  · have ha : f.aborted = false := Bool.eq_false_iff.mpr ha
    have hc : crc32 f.body = f.check := not_not.mp hc
    cases hr : RouteHeader.read f.body with
    | none => simp
    | some g =>
      by_cases hp : g.passes (f.body.drop 24) = true
      · simp only [hp, if_true, Option.some.injEq, Prod.mk.injEq, ha, hc, true_and]
        constructor
        · rintro ⟨rfl, rfl⟩
          exact ⟨rfl, rfl, hp⟩
        · rintro ⟨rfl, rfl, -⟩
          exact ⟨rfl, rfl⟩
      · simp only [hp, Bool.false_eq_true, if_false, reduceCtorEq, Option.some.injEq, ha, hc, true_and, false_iff]
        rintro ⟨rfl, rfl, h⟩
        exact hp h

theorem RouteHeader.passes_iff (h : RouteHeader) (payload : List Byte) :
    h.passes payload = true ↔
      (8 ≤ h.length ∧ h.length ≤ 1024 ∧ payload.length = h.length) ∧ (1 ≤ h.origin ∧ h.origin ≤ 63)
      ∧ ((h.kind = .flood → h.target = 0) ∧ (h.kind = .aimed → 1 ≤ h.target ∧ h.target ≤ 63))
      ∧ 1 ≤ h.budget ∧ h.hops + h.budget ≤ 31 := by
  unfold RouteHeader.passes
  cases h.kind <;> simp [and_assoc]

/-- A header is read where its 24 bytes came and its kind bits name a kind, each field from its own bytes (R174). -/
theorem RouteHeader.read_eq_some_iff (body : List Byte) (h : RouteHeader) :
    RouteHeader.read body = some h ↔
      24 ≤ body.length
      ∧ (bytesAt body 0 1 / 64 = 1 ∧ h.kind = .flood ∨ bytesAt body 0 1 / 64 = 2 ∧ h.kind = .aimed)
      ∧ (h.inexact = true ↔ bytesAt body 0 1 / 32 % 2 = 1) ∧ h.urgency.toNat = bytesAt body 0 1 % 4
      ∧ h.origin = bytesAt body 1 1 ∧ h.target = bytesAt body 2 1 ∧ h.startNumber.toNat = bytesAt body 3 1
      ∧ h.sequence.toNat = bytesAt body 4 2 ∧ h.budget = bytesAt body 6 1 ∧ h.hops = bytesAt body 7 1
      ∧ h.originStamp.toNat = bytesAt body 10 6 ∧ h.routeDelay = bytesAt body 16 4
      ∧ h.length = bytesAt body 20 2 := by
  have h0 := bytesAt_lt body 0 1
  have hkind := Kind.ofBits?_eq_some_iff (n := bytesAt body 0 1 / 64) (by omega) h.kind
  rw [← hkind]
  simp only [RouteHeader.read]
  cases hk : Kind.ofBits? (bytesAt body 0 1 / 64) with
  | none => simp
  | some k =>
    by_cases hl : body.length < 24
    · simp [hl]
    · obtain ⟨kind, origin, startNumber, sequence, target, urgency, budget, hops, stamp, delay, inexact, len⟩ := h
      simp only [hl, if_false, Option.some.injEq, RouteHeader.mk.injEq,
        eq_comm (a := BitVec.ofNat _ _), eq_comm (b := urgency), eq_comm (a := decide _)]
      have eight := BitVec.eq_ofNat_iff startNumber (bytesAt_lt body 3 1)
      have sixteen := BitVec.eq_ofNat_iff sequence (bytesAt_lt body 4 2)
      have fortyEight := BitVec.eq_ofNat_iff stamp (bytesAt_lt body 10 6)
      rw [eight, sixteen, fortyEight, Urgency.eq_ofBits_iff, Bool.eq_iff_iff, decide_eq_true_iff]
      simp only [eq_comm (b := origin), eq_comm (b := target), eq_comm (b := budget), eq_comm (b := hops),
        eq_comm (b := delay), eq_comm (b := len), Nat.not_lt.mp hl, true_and]
      tauto

/-! ### HAILs -/

theorem checkHail_eq_some_iff (f : Frame) (h : Hail) :
    checkHail f = some h ↔ f.aborted = false ∧ crc32 f.body = f.check ∧ Hail.read f.body = some h := by
  unfold checkHail
  split_ifs with ha hc
  · simp [ha]
  · simp [hc]
  · simp [ha, not_not.mp hc]

theorem bytesAt_cons_succ (b : Byte) (l : List Byte) (i n : Nat) : bytesAt (b :: l) (i + 1) n = bytesAt l i n := rfl

theorem bytesAt_drop (l : List Byte) (k i n : Nat) : bytesAt (l.drop k) i n = bytesAt l (k + i) n := by
  rw [bytesAt, List.drop_drop, bytesAt]

/-- A cost vector's entries are read one after the other, a byte and three bytes each (R175). -/
theorem readVector_eq_map : ∀ {n : Nat} {l : List Byte}, l.length = 4 * n →
    readVector l = (List.range n).map (fun i => (bytesAt l (4 * i) 1, bytesAt l (4 * i + 1) 3))
  | 0, l, h => by
    obtain rfl : l = [] := List.length_eq_zero_iff.mp (by omega)
    rfl
  | n + 1, l, h => by
    obtain ⟨d, a, b, c, rest, rfl⟩ : ∃ d a b c rest, l = d :: a :: b :: c :: rest := by
      match l, h with
      | d :: a :: b :: c :: rest, _ => exact ⟨d, a, b, c, rest, rfl⟩
    have hr : rest.length = 4 * n := by simp at h; omega
    rw [readVector, readVector_eq_map hr, List.range_succ_eq_map, List.map_cons, List.map_map]
    refine congrArg₂ List.cons ?_ (List.map_congr_left fun i _ => ?_)
    · simp [bytesAt]
    · simp only [Function.comp_apply, Nat.succ_eq_add_one, Nat.mul_succ]
      rfl

/-- The test of a cost vector: destinations in 1..63, in strictly ascending order (test 6 of R16). -/
theorem ascending_iff : ∀ v : List (Nat × Nat),
    ascending v = true ↔ v.Pairwise (fun x y => x.1 < y.1) ∧ ∀ x ∈ v, 1 ≤ x.1 ∧ x.1 ≤ 63
  | [] => by simp [ascending]
  | [e] => by simp [ascending]
  | e :: e' :: rest => by
    have ih := ascending_iff (e' :: rest)
    rw [ascending, Bool.and_eq_true, Bool.and_eq_true, decide_eq_true_iff, decide_eq_true_iff, ih]
    constructor
    · rintro ⟨⟨h1, hlt⟩, hp, hall⟩
      have hlast := hall e' (by simp)
      refine ⟨List.pairwise_cons.mpr ⟨fun x hx => ?_, hp⟩, ?_⟩
      · rcases List.mem_cons.mp hx with rfl | hx
        · exact hlt
        · exact lt_trans hlt ((List.pairwise_cons.mp hp).1 x hx)
      · rintro x hx
        rcases List.mem_cons.mp hx with rfl | hx
        · exact ⟨h1, by omega⟩
        · exact hall x hx
    · rintro ⟨hp, hall⟩
      exact ⟨⟨(hall e (by simp)).1, (List.pairwise_cons.mp hp).1 e' (by simp)⟩, (List.pairwise_cons.mp hp).2,
        fun x hx => hall x (List.mem_cons_of_mem _ hx)⟩

/-- The byte at which the cost vector begins in a HAIL whose byte 3 is `b3` (R175). -/
def vectorStart (b3 : Nat) : Nat := if 128 ≤ b3 then 25 else 12

/-- The echo group read from bytes 12 to 24, where there is one (R175). -/
theorem echo_eq_read_iff (body : List Byte) (echo : Option Echo) :
    (if (decide (128 ≤ bytesAt body 3 1)) = true then some
        { sequence := BitVec.ofNat 8 (bytesAt body 12 1), departure := BitVec.ofNat 48 (bytesAt body 13 6),
          receipt := BitVec.ofNat 48 (bytesAt body 19 6) }
      else none) = echo ↔
      (bytesAt body 3 1 < 128 → echo = none)
      ∧ (128 ≤ bytesAt body 3 1 → ∃ e : Echo, echo = some e ∧ e.sequence.toNat = bytesAt body 12 1
          ∧ e.departure.toNat = bytesAt body 13 6 ∧ e.receipt.toNat = bytesAt body 19 6) := by
  have hsequence (x : Byte) := BitVec.eq_ofNat_iff x (bytesAt_lt body 12 1)
  have hdeparture (x : Time) := BitVec.eq_ofNat_iff x (bytesAt_lt body 13 6)
  have hreceipt (x : Time) := BitVec.eq_ofNat_iff x (bytesAt_lt body 19 6)
  simp only [decide_eq_true_iff, ← hsequence, ← hdeparture, ← hreceipt]
  split_ifs with h
  · simp only [Nat.not_lt.mpr h, h, false_imp_iff, true_and, true_imp_iff]
    constructor
    · rintro rfl
      exact ⟨_, rfl, rfl, rfl, rfl⟩
    · rintro ⟨⟨a, b, c⟩, rfl, rfl, rfl, rfl⟩
      rfl
  · simp only [Nat.lt_of_not_le h, h, false_imp_iff, and_true, true_imp_iff]
    exact eq_comm

/-- A body is read as a HAIL where its length and its fields pass tests 3 to 6 of R16, each field from its own bytes
(R175, R176). -/
theorem Hail.read_eq_some_iff (body : List Byte) (h : Hail) :
    Hail.read body = some h ↔
      body.length = vectorStart (bytesAt body 3 1) + 4 * bytesAt body 5 1
      ∧ (h.sender = bytesAt body 0 1 ∧ 1 ≤ h.sender ∧ h.sender ≤ 63)
      ∧ h.senderPort.toNat = bytesAt body 1 1 % 8 ∧ h.senderRole.toNat = bytesAt body 1 1 / 16 % 4
      ∧ h.senderState.toNat = bytesAt body 3 1 % 8 ∧ h.sequence.toNat = bytesAt body 2 1
      ∧ h.departure.toNat = bytesAt body 6 6
      ∧ h.farMargin = (BitVec.ofNat 8 (bytesAt body 4 1)).toInt
      ∧ (bytesAt body 3 1 < 128 → h.echo = none)
      ∧ (128 ≤ bytesAt body 3 1 → ∃ e, h.echo = some e ∧ e.sequence.toNat = bytesAt body 12 1
          ∧ e.departure.toNat = bytesAt body 13 6 ∧ e.receipt.toNat = bytesAt body 19 6)
      ∧ h.vector = (List.range (bytesAt body 5 1)).map (fun i =>
          (bytesAt body (vectorStart (bytesAt body 3 1) + 4 * i) 1,
            bytesAt body (vectorStart (bytesAt body 3 1) + 4 * i + 1) 3))
      ∧ h.vector.length ≤ 16 ∧ h.vector.Pairwise (fun x y => x.1 < y.1)
      ∧ ∀ x ∈ h.vector, 1 ≤ x.1 ∧ x.1 ≤ 63 := by
  have hstart : (if (decide (128 ≤ bytesAt body 3 1)) = true then 25 else 12) = vectorStart (bytesAt body 3 1) := by
    simp only [decide_eq_true_iff, vectorStart]
  simp only [Hail.read, hstart]
  by_cases hl : body.length = vectorStart (bytesAt body 3 1) + 4 * bytesAt body 5 1
  case neg => simp [hl]
  have hvector : readVector (body.drop (vectorStart (bytesAt body 3 1)))
      = (List.range (bytesAt body 5 1)).map (fun i =>
          (bytesAt body (vectorStart (bytesAt body 3 1) + 4 * i) 1,
            bytesAt body (vectorStart (bytesAt body 3 1) + 4 * i + 1) 3)) := by
    rw [readVector_eq_map (n := bytesAt body 5 1) (by rw [List.length_drop]; omega)]
    simp only [bytesAt_drop, Nat.add_assoc]
  rw [if_neg (not_not.mpr hl), hvector]
  generalize hv : (List.range (bytesAt body 5 1)).map _ = v
  have hcount : bytesAt body 5 1 = v.length := by simp [← hv]
  rw [← portOf?_eq_some_iff, ← Role.ofByte?_eq_some_iff (by omega)]
  cases hp : portOf? (bytesAt body 1 1 % 8) with
  | none => simp
  | some port =>
    cases hr : Role.ofByte? (BitVec.ofNat 8 (bytesAt body 1 1 / 16 % 4)) with
    | none => simp
    | some role =>
      have hascending := ascending_iff v
      have hecho := echo_eq_read_iff body h.echo
      have hsequence := BitVec.eq_ofNat_iff h.sequence (bytesAt_lt body 2 1)
      have hdeparture := BitVec.eq_ofNat_iff h.departure (bytesAt_lt body 6 6)
      obtain ⟨sender, senderPort, senderRole, sequence, departure, margin, state, echo, vector⟩ := h
      have hstate := LinkState.eq_ofBits_iff state (bytesAt body 3 1)
      dsimp only at hecho hsequence hdeparture ⊢
      rw [← hsequence, ← hdeparture, ← hstate, ← signedByte_eq_toInt (bytesAt_lt body 4 1)]
      generalize (if (decide (128 ≤ bytesAt body 3 1)) = true then some _ else none) = read at hecho ⊢
      split_ifs with hsender hmany hrising
      · rw [false_iff]
        rintro ⟨-, ⟨rfl, h1, h63⟩, -⟩
        omega
      · rw [false_iff]
        rintro ⟨-, -, -, -, -, -, -, -, -, -, rfl, h16, -⟩
        omega
      · simp only [Option.some.injEq, Hail.mk.injEq, hecho, hl, true_and]
        constructor
        · rintro ⟨rfl, rfl, rfl, rfl, rfl, rfl, rfl, ⟨hnone, hsome⟩, rfl⟩
          obtain ⟨hpair, hrange⟩ := hascending.mp hrising
          exact ⟨⟨rfl, by omega, by omega⟩, rfl, rfl, rfl, rfl, rfl, rfl, hnone, hsome, rfl, by omega, hpair, hrange⟩
        · rintro ⟨⟨rfl, -, -⟩, rfl, rfl, rfl, rfl, rfl, rfl, hnone, hsome, rfl, -⟩
          exact ⟨rfl, rfl, rfl, rfl, rfl, rfl, rfl, ⟨hnone, hsome⟩, rfl⟩
      · rw [false_iff]
        rintro ⟨-, -, -, -, -, -, -, -, -, -, rfl, -, hpair, hrange⟩
        exact hrising (hascending.mpr ⟨hpair, hrange⟩)

/-! ### The obligation -/

/-- Settles O8: the tests of R13 and of R16, each field read from its own bytes. -/
theorem goodTrafficFramePassesEightTests : Obligations.GoodTrafficFramePassesEightTests := by
  refine ⟨fun f h payload => ?_, RouteHeader.read_eq_some_iff, fun f h => ?_⟩
  · rw [checkTraffic_eq_some_iff]
    refine and_congr_right fun _ => and_congr_right fun _ => and_congr_right fun _ => and_congr_right ?_
    rintro rfl
    exact h.passes_iff _
  · rw [checkHail_eq_some_iff]
    exact and_congr_right fun _ => and_congr_right fun _ => Hail.read_eq_some_iff f.body h

end Sys2Proof.Machine


/-! Frames on the line (chapter 1, sections 1.5 and 1.7; chapter 11, section 11.1): a departing frame's fields stand where
the next station reads them. -/

namespace Sys2Proof.Machine

/-! ### A field in a record written out -/

@[simp] theorem bytesAt_cons_zero (b : Byte) (l : List Byte) : bytesAt (b :: l) 0 1 = b.toNat := by
  simp [bytesAt]

@[simp] theorem bytesAt_zero_two (a b : Byte) (l : List Byte) : bytesAt (a :: b :: l) 0 2 = a.toNat * 256 + b.toNat := by
  simp [bytesAt, ofBytes]

@[simp] theorem bytesAt_self {a : List Byte} {n : Nat} (h : a.length = n) : bytesAt a 0 n = ofBytes a := by
  rw [bytesAt, List.drop_zero, List.take_of_length_le (by omega)]

@[simp] theorem bytesAt_append_self {a : List Byte} (b : List Byte) {n : Nat} (h : a.length = n) :
    bytesAt (a ++ b) 0 n = ofBytes a := by
  rw [bytesAt_append_left b (by omega), bytesAt_self h]

@[simp] theorem ofBytes_beTime (t : Time) : ofBytes (beTime t) = t.toNat :=
  ofBytes_beBytes_of_lt (lt_of_lt_of_le t.isLt (by norm_num))

/-! ### Traffic frames -/

@[simp] theorem RouteHeader.length_bytes (h : RouteHeader) : h.bytes.length = 24 := by
  simp [RouteHeader.bytes]

theorem kindByte_toNat (k : Kind) (inexact : Bool) (u : Urgency) :
    (kindByte k inexact u).toNat = k.toNat * 64 + (if inexact then 32 else 0) + u.toNat := by
  cases k <;> cases inexact <;> cases u <;> rfl

theorem Urgency.toNat_lt (u : Urgency) : u.toNat < 4 := by
  cases u <;> decide

/-- A header that keeps to its ranges is read back from the bytes it leaves as. -/
theorem RouteHeader.read_bytes (h : RouteHeader) (payload : List Byte) (horigin : h.origin < 256)
    (htarget : h.target < 256) (hbudget : h.budget < 256) (hhops : h.hops < 256) (hdelay : h.routeDelay < 2 ^ 32)
    (hlength : h.length < 65536) : RouteHeader.read (h.bytes ++ payload) = some h := by
  have hu := h.urgency.toNat_lt
  have hkind : bytesAt (h.bytes ++ payload) 0 1 = h.kind.toNat * 64 + (if h.inexact then 32 else 0) + h.urgency.toNat := by
    simp [RouteHeader.bytes, kindByte_toNat]
  rw [RouteHeader.read_eq_some_iff, hkind]
  refine ⟨by simp, ?_, ?_, ?_, ?_⟩
  · cases h.kind <;> cases h.inexact <;> simp [Kind.toNat] <;> omega
  · cases h.kind <;> cases h.inexact <;> simp [Kind.toNat] <;> omega
  · cases h.kind <;> cases h.inexact <;> simp [Kind.toNat] <;> omega
  · simp [RouteHeader.bytes, bytesAt_cons_succ, bytesAt_append_right, ofBytes_beBytes]
    omega

/-! ### The obligation's parts -/

theorem trafficFrame_survives (h : RouteHeader) (payload : List Byte) (horigin : 1 ≤ h.origin) (hstation : h.origin ≤ 63)
    (hflood : h.kind = .flood → h.target = 0) (haimed : h.kind = .aimed → 1 ≤ h.target ∧ h.target ≤ 63)
    (hbudget : 1 ≤ h.budget) (hhops : h.hops + h.budget ≤ 31) (hdelay : h.routeDelay ≤ 4294967295)
    (hshort : 8 ≤ h.length) (hlong : h.length ≤ 1024) (hpayload : payload.length = h.length) :
    checkTraffic (trafficFrame h payload) = some (h, payload) := by
  have htarget : h.target < 256 := by
    cases hk : h.kind with
    | flood => rw [hflood hk]; norm_num
    | aimed => have := haimed hk; omega
  rw [checkTraffic_eq_some_iff]
  refine ⟨rfl, rfl, h.read_bytes payload (by omega) htarget (by omega) (by omega) (by omega) (by omega), ?_, ?_⟩
  · simp [trafficFrame]
  · exact (h.passes_iff payload).mpr
      ⟨⟨hshort, hlong, hpayload⟩, ⟨horigin, hstation⟩, ⟨hflood, haimed⟩, hbudget, hhops⟩

theorem trafficFrame_spare (h : RouteHeader) (payload : List Byte) :
    bytesAt (trafficFrame h payload).body 0 1 / 4 % 8 = 0 ∧ bytesAt (trafficFrame h payload).body 8 2 = 0
      ∧ bytesAt (trafficFrame h payload).body 22 2 = 0 := by
  have hu := h.urgency.toNat_lt
  refine ⟨?_, ?_, ?_⟩
  · simp only [trafficFrame, RouteHeader.bytes, List.cons_append, List.append_assoc, bytesAt_cons_zero, kindByte_toNat]
    split <;> omega
  · simp [trafficFrame, RouteHeader.bytes, bytesAt_cons_succ, bytesAt_append_right]
  · simp [trafficFrame, RouteHeader.bytes, bytesAt_cons_succ, bytesAt_append_right]

/-- The check's byte `i` as sent is bits 8i to 8i + 7 (R173). -/
theorem checkBytes_getD (c : BitVec 32) {i : Nat} (hi : i < 4) :
    (checkBytes c).getD i 0 = c.extractLsb' (8 * i) 8 := by
  apply BitVec.eq_of_toNat_eq
  simp only [checkBytes, beBytes, List.nil_append, List.cons_append, List.reverse_cons, List.reverse_nil]
  interval_cases i <;> simp [BitVec.extractLsb'_toNat, Nat.shiftRight_eq_div_pow, Nat.div_div_eq_div_mul]

@[simp] theorem length_checkBytes (c : BitVec 32) : (checkBytes c).length = 4 := by
  simp [checkBytes]

theorem ofBytes_reverse_checkBytes (c : BitVec 32) : ofBytes (checkBytes c).reverse = c.toNat := by
  rw [checkBytes, List.reverse_reverse, ofBytes_beBytes_of_lt (lt_of_lt_of_le c.isLt (by norm_num))]

theorem frameOfBytes_frameBytes (f : Frame) : frameOfBytes (frameBytes f) f.aborted = f := by
  have hlen : (frameBytes f).length - 4 = f.body.length := by simp [frameBytes]
  rw [frameOfBytes, hlen]
  simp [frameBytes, ofBytes_reverse_checkBytes]

theorem crc32_concat (l : List Byte) (b : Byte) :
    crc32 (l ++ [b]) = ~~~ (Nat.iterate crcShift 8 (~~~ (crc32 l) ^^^ b.setWidth 32)) := by
  rw [crc32, List.foldl_append, crc32, BitVec.not_not]
  rfl

theorem crc32_check : crc32 [0x31, 0x32, 0x33, 0x34, 0x35, 0x36, 0x37, 0x38, 0x39] = 0xCBF43926#32 := by
  simp [crc32, crcByte, crcShift]

/-! ### HAILs -/

theorem Role.toNat_lt (r : Role) : r.toNat < 3 := by
  cases r <;> decide

theorem LinkState.toNat_lt (l : LinkState) : l.toNat < 8 := by
  cases l <;> decide

theorem portNumber_lt (p : Port) : p.toNat < 5 := by
  cases p <;> decide

/-- The bytes of the echo group, none where there is no echo. -/
abbrev Hail.echoBytes (h : Hail) : List Byte := h.echo.elim [] Echo.bytes

theorem Hail.bytes_eq (h : Hail) :
    h.bytes = [BitVec.ofNat 8 h.sender, BitVec.ofNat 8 (h.senderRole.toNat * 16 + h.senderPort.toNat), h.sequence,
        BitVec.ofNat 8 ((if h.echo.isSome then 128 else 0) + h.senderState.toNat)]
      ++ beSigned 1 h.farMargin ++ [BitVec.ofNat 8 h.vector.length] ++ beTime h.departure ++ h.echoBytes
      ++ vectorBytes h.vector := by
  rw [Hail.bytes, Hail.echoBytes]
  cases h.echo <;> rfl

/-- The number of byte 3: the echo flag and the link state (R175). -/
theorem Hail.byte_three (h : Hail) :
    bytesAt h.bytes 3 1 = (if h.echo.isSome then 128 else 0) + h.senderState.toNat := by
  have := h.senderState.toNat_lt
  simp only [Hail.bytes, List.cons_append, bytesAt_cons_succ, bytesAt_cons_zero, BitVec.toNat_ofNat]
  split <;> omega

theorem Hail.byte_one (h : Hail) : bytesAt h.bytes 1 1 = h.senderRole.toNat * 16 + h.senderPort.toNat := by
  have := h.senderRole.toNat_lt
  have := portNumber_lt h.senderPort
  simp only [Hail.bytes, List.cons_append, bytesAt_cons_succ, bytesAt_cons_zero, BitVec.toNat_ofNat]
  omega

/-- The cost vector begins after the echo group. -/
theorem Hail.vectorStart_bytes (h : Hail) : vectorStart (bytesAt h.bytes 3 1) = 12 + h.echoBytes.length := by
  have := h.senderState.toNat_lt
  rw [Hail.byte_three, vectorStart, Hail.echoBytes]
  cases h.echo
  · simp
    omega
  · simp [Echo.bytes]

theorem length_vectorBytes (v : List (Nat × Nat)) : (vectorBytes v).length = 4 * v.length := by
  induction v with
  | nil => rfl
  | cons e v ih => simp only [vectorBytes, List.map_cons, List.flatten_cons, List.length_append] at *; simp [ih]; omega

/-- Entry `i` of a cost vector stands at bytes 4i to 4i + 3 (R175). -/
theorem vectorBytes_entry {v : List (Nat × Nat)} {i : Nat} {e : Nat × Nat} (hi : v[i]? = some e) (hd : e.1 < 256)
    (hc : e.2 ≤ 16777215) :
    bytesAt (vectorBytes v) (4 * i) 1 = e.1 ∧ bytesAt (vectorBytes v) (4 * i + 1) 3 = e.2 := by
  have hw (e : Nat × Nat) : (BitVec.ofNat 8 e.1 :: beBytes 3 e.2).length = 4 := by simp
  constructor
  · rw [vectorBytes, ← Nat.add_zero (4 * i), bytesAt_flatten_map hw hi (by omega)]
    simpa using hd
  · rw [vectorBytes, bytesAt_flatten_map hw hi (by omega), bytesAt_cons_succ, bytesAt_self (by simp),
      ofBytes_beBytes_of_lt (by omega)]

theorem Hail.vector_bytes (h : Hail) {i : Nat} (n : Nat) :
    bytesAt h.bytes (vectorStart (bytesAt h.bytes 3 1) + i) n = bytesAt (vectorBytes h.vector) i n := by
  rw [Hail.vectorStart_bytes, Hail.bytes_eq, bytesAt_append_right _ _ (by simp; omega)]
  congr 1
  simp
  omega

/-- A signed byte is read back within its range. -/
theorem signedByte_beSigned {m : Int} (hm : inMargin m) : (BitVec.ofNat 8 (ofBytes (beSigned 1 m))).toInt = m := by
  obtain ⟨hlow, hhigh⟩ := hm
  rw [beSigned, ofBytes_beBytes, BitVec.toInt_ofNat', Int.bmod_def]
  norm_num
  omega

/-- A HAIL that keeps to its ranges is read back from the bytes it leaves as. -/
theorem Hail.read_bytes (h : Hail) (hstation : 1 ≤ h.sender) (hsender : h.sender ≤ 63) (hmargin : inMargin h.farMargin)
    (hmany : h.vector.length ≤ 16) (hrising : h.vector.Pairwise (fun x y => x.1 < y.1))
    (hvector : ∀ x ∈ h.vector, 1 ≤ x.1 ∧ x.1 ≤ 63 ∧ x.2 ≤ 16777215) : Hail.read h.bytes = some h := by
  have hport := portNumber_lt h.senderPort
  have hrole := h.senderRole.toNat_lt
  have hstate := h.senderState.toNat_lt
  have hcount : bytesAt h.bytes 5 1 = h.vector.length := by
    simp [Hail.bytes, bytesAt_cons_succ, bytesAt_append_right]
    omega
  rw [Hail.read_eq_some_iff, hcount]
  refine ⟨?_, ⟨?_, hstation, hsender⟩, ?_, ?_, ?_, ?_, ?_, ?_, ?_, ?_, ?_, hmany, hrising,
    fun x hx => ⟨(hvector x hx).1, (hvector x hx).2.1⟩⟩
  · rw [Hail.vectorStart_bytes, Hail.bytes_eq]
    simp [length_vectorBytes]
    omega
  · simp [Hail.bytes]
    omega
  · rw [Hail.byte_one]
    omega
  · rw [Hail.byte_one]
    omega
  · rw [Hail.byte_three]
    split <;> omega
  · simp [Hail.bytes, bytesAt_cons_succ]
  · simp [Hail.bytes, bytesAt_cons_succ, bytesAt_append_right]
  · simp [Hail.bytes, bytesAt_cons_succ, signedByte_beSigned hmargin]
  · intro hlow
    rw [Hail.byte_three] at hlow
    cases hecho : h.echo with
    | none => rfl
    | some e => simp [hecho] at hlow
  · intro hhigh
    rw [Hail.byte_three] at hhigh
    cases hecho : h.echo with
    | none => simp [hecho] at hhigh; omega
    | some e =>
      refine ⟨e, rfl, ?_⟩
      simp [Hail.bytes_eq, Hail.echoBytes, hecho, Echo.bytes, bytesAt_cons_succ, bytesAt_append_right]
  · refine List.ext_getElem (by simp) fun i hi hi' => ?_
    obtain ⟨hlow, hhigh, hcost⟩ := hvector _ (List.getElem_mem hi)
    obtain ⟨hdestination, hheard⟩ := vectorBytes_entry (List.getElem?_eq_getElem hi) (by omega) hcost
    rw [List.getElem_map, List.getElem_range, Nat.add_assoc, Hail.vector_bytes, Hail.vector_bytes, hdestination, hheard]

theorem hailFrame_length (h : Hail) :
    (hailFrame h).body.length = 12 + (if h.echo.isSome = true then 13 else 0) + 4 * h.vector.length := by
  rw [hailFrame, Hail.bytes_eq, Hail.echoBytes]
  cases h.echo <;> simp [length_vectorBytes, Echo.bytes] <;> omega

theorem hailFrame_spare (h : Hail) :
    bytesAt (hailFrame h).body 1 1 / 64 = 0 ∧ bytesAt (hailFrame h).body 1 1 / 8 % 2 = 0
      ∧ bytesAt (hailFrame h).body 3 1 / 8 % 16 = 0 := by
  have hport := portNumber_lt h.senderPort
  have hrole := h.senderRole.toNat_lt
  have hstate := h.senderState.toNat_lt
  rw [hailFrame, Hail.byte_one, Hail.byte_three]
  split <;> omega

/-! ### The obligation -/

/-- Settles O52: what departs is read back field by field, and the check is the CRC-32 of R173. -/
theorem framesSurviveTheLine : Obligations.FramesSurviveTheLine := by
  refine ⟨?_, ?_, ?_, ?_, ?_⟩
  · intro h payload horigin hstation hflood haimed hbudget hhops hdelay hshort hlong hpayload
    exact ⟨by simp [trafficFrame], trafficFrame_spare h payload,
      trafficFrame_survives h payload horigin hstation hflood haimed hbudget hhops hdelay hshort hlong hpayload⟩
  · intro s p
    refine ⟨fun h => ?_, fun h hh => ?_, fun i h b hh hb => ?_⟩
    · simp [State.departing, h]
    · simp [State.departing, hh, classHail]
    · simp [State.departing, hh, hb, classTraffic]
  · intro f
    refine ⟨by simp [frameBytes], by simp [frameBytes], fun i hi => ?_, frameOfBytes_frameBytes f⟩
    rw [frameBytes, List.drop_left, checkBytes_getD f.check hi]
  · exact ⟨rfl, crc32_concat, crc32_check⟩
  · intro h hstation hsender hmargin hmany hrising hvector
    refine ⟨hailFrame_length h, hailFrame_spare h, ?_⟩
    rw [checkHail_eq_some_iff]
    exact ⟨rfl, rfl, h.read_bytes hstation hsender hmargin hmany hrising hvector⟩

end Sys2Proof.Machine


/-! The service line's transfers (chapter 10, section 10.1; chapter 11, section 11.3): each command is read back from the
bytes of its transfer. -/

namespace Sys2Proof

open Machine

/-! ### Header bytes -/

/-- The number of a first header byte: the device code over the transfer type (R179). -/
theorem headerByte_toNat (dev : BitVec 2) {type : Nat} (h : type < 8) :
    (headerByte dev type).toNat = dev.toNat * 64 + type := by
  have := dev.isLt
  rw [headerByte, BitVec.toNat_ofNat]
  omega

@[simp] theorem typeOf_headerByte (dev : BitVec 2) {type : Nat} (h : type < 8) :
    typeOf (headerByte dev type) = type := by
  rw [typeOf, headerByte_toNat dev h]
  omega

@[simp] theorem deviceOf_headerByte (dev : BitVec 2) {type : Nat} (h : type < 8) :
    deviceOf (headerByte dev type) = dev := by
  have := dev.isLt
  apply BitVec.eq_of_toNat_eq
  rw [deviceOf, headerByte_toNat dev h, BitVec.toNat_ofNat]
  omega

theorem maskByte_toNat (mask : BitVec 5) (station : Bool) :
    (maskByte mask station).toNat = (if station then 128 else 0) + mask.toNat := by
  have := mask.isLt
  rw [maskByte, BitVec.toNat_ofNat]
  split <;> omega

@[simp] theorem maskOf_maskByte (mask : BitVec 5) (station : Bool) : maskOf (maskByte mask station) = mask := by
  have := mask.isLt
  apply BitVec.eq_of_toNat_eq
  rw [maskOf, maskByte_toNat, BitVec.toNat_ofNat]
  split <;> omega

@[simp] theorem stationOf_maskByte (mask : BitVec 5) (station : Bool) : stationOf (maskByte mask station) = station := by
  have := mask.isLt
  rw [stationOf, ← BitVec.testBit_toNat, maskByte_toNat, Nat.testBit_eq_decide_div_mod_eq]
  cases station <;> simp <;> omega

theorem selectorByte_toNat {selector : Nat} (h : selector < 8) (mask : BitVec 5) :
    (selectorByte selector mask).toNat = selector * 32 + mask.toNat := by
  have := mask.isLt
  rw [selectorByte, BitVec.toNat_ofNat]
  omega

@[simp] theorem maskOf_selectorByte {selector : Nat} (h : selector < 8) (mask : BitVec 5) :
    maskOf (selectorByte selector mask) = mask := by
  have := mask.isLt
  apply BitVec.eq_of_toNat_eq
  rw [maskOf, selectorByte_toNat h, BitVec.toNat_ofNat]
  omega

theorem selectorByte_div {selector : Nat} (h : selector < 8) (mask : BitVec 5) :
    (selectorByte selector mask).toNat / 32 = selector := by
  have := mask.isLt
  rw [selectorByte_toNat h]
  omega

/-! ### Whole transfers -/

@[simp] theorem decodeTransfer_command (dev : BitVec 2) (h2 code : Byte) (ops : List Byte) :
    decodeTransfer (commandTransfer dev h2 code ops) false = [decodeCommand dev h2 (code :: ops)] := by
  simp [decodeTransfer, commandTransfer]

@[simp] theorem decodeTransfer_configWrite (dev : BitVec 2) (h2 : Byte) {body : List Byte} (h : completeBody body = true) :
    decodeTransfer (headerByte dev 1 :: h2 :: body) false = [.configWrite dev body] := by
  simp [decodeTransfer, h]

@[simp] theorem decodeTransfer_statusRead (dev : BitVec 2) (h2 : Byte) (n : Nat) :
    decodeTransfer (readTransfer dev 2 h2 n) false = [.statusRead dev (maskOf h2) n] := by
  simp [decodeTransfer, readTransfer]

@[simp] theorem decodeTransfer_counterRead (dev : BitVec 2) (h2 : Byte) (n : Nat) :
    decodeTransfer (readTransfer dev 3 h2 n) false = [.counterRead dev (maskOf h2) (stationOf h2) n] := by
  simp [decodeTransfer, readTransfer]

@[simp] theorem decodeTransfer_tableRead (dev : BitVec 2) (h2 : Byte) (n : Nat) :
    decodeTransfer (readTransfer dev 4 h2 n) false = [decodeTableRead dev h2 n] := by
  simp [decodeTransfer, readTransfer]

@[simp] theorem decodeTransfer_timeRead (dev : BitVec 2) (h2 : Byte) (n : Nat) :
    decodeTransfer (readTransfer dev 5 h2 n) false = [.timeRead dev, .timeReadRelease n] := by
  simp [decodeTransfer, readTransfer]

/-- The types 6 and 7 are those that name no transfer (R162). -/
theorem decodeTransfer_unknownType (dev : BitVec 2) {type : BitVec 3} (h : 6 ≤ type.toNat) :
    decodeTransfer [headerByte dev type.toNat, 0] false = [.unknownTransferType dev type] := by
  have hlt : type.toNat < 8 := type.isLt
  have htype : type = 6 ∨ type = 7 := by
    rcases (by omega : type.toNat = 6 ∨ type.toNat = 7) with h | h
    · exact .inl (BitVec.eq_of_toNat_eq h)
    · exact .inr (BitVec.eq_of_toNat_eq h)
  rcases htype with rfl | rfl <;> simp [decodeTransfer]

/-- A code outside 1..10 names no command (R167). -/
theorem decodeCommand_unknown (dev : BitVec 2) (h2 : Byte) {code : Byte} (h : unknownCode code = true) (ops : List Byte) :
    decodeCommand dev h2 (code :: ops) = .unknownCommand dev code := by
  have hcode : code.toNat = 0 ∨ ∃ n, code.toNat = n + 11 := by
    simp only [unknownCode, Bool.or_eq_true, decide_eq_true_iff] at h
    rcases h with rfl | h
    · exact .inl rfl
    · exact .inr ⟨code.toNat - 11, by omega⟩
  rw [decodeCommand]
  rcases hcode with h | ⟨n, h⟩ <;> simp only [h]

theorem ofNat_ofBytes_beBytes_four (x : BitVec 32) : BitVec.ofNat 32 (ofBytes (beBytes 4 x.toNat)) = x := by
  rw [ofBytes_beBytes_of_lt (lt_of_lt_of_le x.isLt (by norm_num)), BitVec.ofNat_toNat, BitVec.setWidth_eq]

/-- ARM_SCHEDULE's eight operand bytes: the target, the action and the port mask (R179). -/
theorem decodeCommand_armSchedule (dev : BitVec 2) (h2 : Byte) (target : Time) (action : Byte) (mask : BitVec 5) :
    decodeCommand dev h2 (4 :: (beTime target ++ [action, maskByte mask false])) = .armSchedule dev target action mask := by
  simp [decodeCommand, List.getD_eq_getElem?_getD]

theorem decodeCommand_timeStep (dev : BitVec 2) (h2 : Byte) (x : BitVec 32) :
    decodeCommand dev h2 (6 :: beBytes 4 x.toNat) = .timeStep dev x := by
  simp [decodeCommand, List.take_of_length_le, ofNat_ofBytes_beBytes_four]

theorem decodeCommand_timeTrim (dev : BitVec 2) (h2 : Byte) (x : BitVec 32) :
    decodeCommand dev h2 (7 :: beBytes 4 x.toNat) = .timeTrim dev x := by
  simp [decodeCommand, List.take_of_length_le, ofNat_ofBytes_beBytes_four]

/-! ### The obligation -/

/-- A command that a transfer carries whole is read back with its operands. -/
theorem decodeTransfer_of_encodeTransfer {c : Instr} {bytes : List Byte} (hw : c.wellFormed = true)
    (he : encodeTransfer c = some bytes) : decodeTransfer bytes false = [c] := by
  cases c <;> simp only [encodeTransfer, Option.some.injEq, reduceCtorEq] at he <;> subst he
  case unknownCommand dev code => rw [decodeTransfer_command, decodeCommand_unknown dev 0 hw]
  case unknownTransferType dev type => exact decodeTransfer_unknownType dev (decide_eq_true_iff.mp hw)
  case configWrite dev body => exact decodeTransfer_configWrite dev 0 hw
  case armSchedule dev target action mask => rw [decodeTransfer_command, decodeCommand_armSchedule]
  case timeStep dev x => rw [decodeTransfer_command, decodeCommand_timeStep]
  case timeTrim dev x => rw [decodeTransfer_command, decodeCommand_timeTrim]
  case statusRead dev mask n => simp
  case counterRead dev mask station n => simp
  case tableReadLink | tableReadCost | tableReadSeen | tableReadRing | tableReadRace | tableReadConfig
      | tableReadUnknown =>
    simp [decodeTableRead, selectorByte_div]
  case start | rejoin | force | disarm | clearCounters | clearRollover | ackNotices =>
    simp [decodeCommand]

/-- Settles O51, by the commands of the service line. -/
theorem transfersDecodeToTheirCommands : Obligations.TransfersDecodeToTheirCommands := by
  refine ⟨fun c bytes => decodeTransfer_of_encodeTransfer, fun c d hd hread => ?_,
    fun dev n => decodeTransfer_timeRead dev 0 n⟩
  cases c <;> simp_all [serviceDevice?, encodeTransfer]

end Sys2Proof


/-! What a service-line transfer does before its command's own effect (chapter 10, sections 10.1 to 10.4), and the time
input around a TIME_READ (chapter 2, section 2.4). -/

namespace Sys2Proof.Machine

/-! ### Transfers -/

/-- Every service-line command is a transfer of its device code with one effect on the blocks. -/
theorem exec_of_serviceDevice {c : Instr} {dev : BitVec 2} (h : serviceDevice? c = some dev) :
    ∃ f : State → State, ∀ s, exec c s = .next (s.transfer dev f) := by
  cases c <;> simp only [serviceDevice?, reduceCtorEq, Option.some.injEq] at h <;> subst h <;>
    exact ⟨_, fun _ => rfl⟩

theorem State.endTimeRead_timeRead (s : State) (n : Nat) : (s.endTimeRead n).slc.timeRead = false := by
  cases h : s.slc.timeRead
  · rw [State.endTimeRead_of_idle h, h]
  · unfold State.endTimeRead State.applyHeld State.applyCapture
    rw [if_pos h]
    split
    · rfl
    · split <;> rfl

/-- A transfer begins with the release of a TIME_READ still in progress (log 7). -/
theorem State.transfer_endTimeRead (s : State) (dev : BitVec 2) (f : State → State) :
    (s.endTimeRead 0).transfer dev f = s.transfer dev f := by
  rw [State.transfer, State.transfer, State.endTimeRead_of_idle (s.endTimeRead_timeRead 0)]

/-- The bytes shifted out: byte i of the data, 0 past its end (R163). -/
theorem shiftOut_eq_shifted (data : List Byte) (n : Nat) : shiftOut data n = shifted data n := by
  refine List.ext_getElem (by simp [shiftOut, shifted]; omega) fun i hi _ => ?_
  have hn : i < n := by simp [shiftOut] at hi; omega
  rw [← Option.some_inj, ← List.getElem?_eq_getElem, ← List.getElem?_eq_getElem, shiftOut, shifted]
  by_cases hd : i < data.length
  · simp [List.getElem?_append_left, hn, hd]
  · rw [List.getElem?_append_right (by simp; omega), List.getElem?_replicate, if_pos (by simp; omega)]
    simp [hn, Nat.not_lt.mp hd]

/-- Settles O50: each transfer unfolded through what every transfer does first. -/
theorem refusedAndForeignTransfersChangeNothing : Obligations.RefusedAndForeignTransfersChangeNothing := by
  intro dev s
  refine ⟨fun ha => ⟨fun code => ?_, fun type => ?_, fun hc c code h => ?_⟩, fun ht => ⟨?_, fun c hc hd => ?_⟩,
    fun _ => ⟨s.endTimeRead 0, rfl, rfl, s.endTimeRead_timeRead 0, fun c hc => ?_⟩⟩
  · exact congrArg Host.Outcome.next (State.transfer_of_addressed ha _)
  · exact congrArg Host.Outcome.next (State.transfer_of_addressed ha _)
  · have hrefused (f : State → State) :
        s.transfer dev (fun s => s.serviceCommand code f) = s.setResult ⟨0, code⟩ .refusedState none :=
      (State.transfer_of_addressed ha _).trans (serviceCommand_of_config hc code f)
    simp only [List.mem_cons, Prod.mk.injEq, List.not_mem_nil, or_false] at h
    rcases h with (⟨rfl, rfl⟩ | ⟨rfl, rfl⟩) | ⟨m, a, rfl, rfl⟩ | ⟨x, a, m, rfl, rfl⟩
    · exact congrArg Host.Outcome.next (hrefused _)
    · exact congrArg Host.Outcome.next (hrefused _)
    · exact congrArg Host.Outcome.next (hrefused _)
    · exact congrArg Host.Outcome.next (hrefused _)
  · exact congrArg Host.Outcome.next (State.endTimeRead_of_idle ht 0)
  · obtain ⟨f, hf⟩ := exec_of_serviceDevice hc
    rw [hf, State.transfer_of_foreign ht hd]
  · obtain ⟨f, hf⟩ := exec_of_serviceDevice hc
    rw [hf, hf, State.transfer_endTimeRead]

/-! ### Fields of a record -/

theorem drop_append_past {a : List Byte} (b : List Byte) {i : Nat} (h : a.length ≤ i) :
    (a ++ b).drop i = b.drop (i - a.length) := by
  rw [List.drop_append, List.drop_eq_nil_of_le h, List.nil_append]

/-- In a table of records of one width, a record begins at its place. -/
theorem drop_flatten_map {α : Type} {f : α → List Byte} {w : Nat} (hw : ∀ x, (f x).length = w) :
    ∀ {l : List α} {k : Nat} {x : α}, l[k]? = some x → ∃ rest, (l.map f).flatten.drop (w * k) = f x ++ rest
  | [], _, _, hk => by simp at hk
  | y :: l, 0, x, hk => by
    obtain rfl : y = x := by simpa using hk
    exact ⟨(l.map f).flatten, by simp⟩
  | y :: l, k + 1, x, hk => by
    obtain ⟨rest, hrest⟩ := drop_flatten_map hw (l := l) (k := k) (by simpa using hk)
    refine ⟨rest, ?_⟩
    rw [List.map_cons, List.flatten_cons, drop_append_past _ (by rw [hw, Nat.mul_succ]; omega), hw, ← hrest]
    congr 1
    rw [Nat.mul_succ]
    omega

theorem length_flatten_map {α : Type} {f : α → List Byte} {w : Nat} (hw : ∀ x, (f x).length = w) (l : List α) :
    (l.map f).flatten.length = w * l.length := by
  simp [Function.comp_def, hw, Nat.mul_comm]

theorem ofBytes_replicate_zero (n : Nat) : ofBytes (List.replicate n 0#8) = 0 := by
  induction n with
  | zero => rfl
  | succ n ih => rw [List.replicate_succ', ofBytes_concat, ih]; rfl

theorem bytesAt_zero_cons_replicate (n : Nat) (rest : List Byte) :
    bytesAt (0 :: List.replicate n 0 ++ rest) 0 (n + 1) = 0 := by
  rw [← List.replicate_succ, bytesAt_append_self _ (by simp)]
  exact ofBytes_replicate_zero (n + 1)

theorem optField_drop (rec : List Byte) (k i n : Nat) (x : Option Nat) :
    optField (rec.drop k) i n x ↔ optField rec (k + i) n x := by
  simp [optField, bytesAt_drop, Nat.add_assoc]

theorem length_optional {α : Type} {n : Nat} {f : α → List Byte} (hf : ∀ v, (f v).length = n) (x : Option α) :
    (optional n (x.map f)).length = n + 1 := by
  cases x <;> simp [optional, hf]

/-- A field that may be none shows its presence byte and its value (R180). -/
theorem optField_optional {α : Type} {n : Nat} {f : α → List Byte} {g : α → Nat} (hf : ∀ v, (f v).length = n)
    (hg : ∀ v, g v < 256 ^ n → ofBytes (f v) = g v) (x : Option α) (rest : List Byte) :
    optField (optional n (x.map f) ++ rest) 0 n (x.map g) := by
  cases x with
  | none =>
    refine ⟨fun _ => ⟨by simp [optional], ?_⟩, fun v hv => by cases hv⟩
    simp [optional, bytesAt_cons_succ, ofBytes_replicate_zero]
  | some v =>
    refine ⟨fun hv => (by cases hv), fun y hy hlt => ?_⟩
    obtain rfl : g v = y := by simpa using hy
    simp [optional, bytesAt_cons_succ, bytesAt_append_self _ (hf v), hg v hlt]

theorem length_stageBytes (c : Option Stamp) : (stageBytes c).length = 13 :=
  length_optional (by simp) c

theorem stageFields_drop (rec : List Byte) (o : Nat) (c : Option Stamp) :
    stageFields rec o c ↔ stageFields (rec.drop o) 0 c := by
  simp [stageFields, bytesAt_drop]

theorem stageFields_stageBytes (c : Option Stamp) (rest : List Byte) : stageFields (stageBytes c ++ rest) 0 c := by
  cases c with
  | none => exact ⟨fun _ => bytesAt_zero_cons_replicate 12 rest, fun x hx => by cases hx⟩
  | some x =>
    refine ⟨fun h => (by cases h), fun y hy => ?_⟩
    obtain rfl := Option.some.inj hy
    simp [stageBytes, optional, bytesAt_cons_succ, bytesAt_append_right]

/-! ### TIME_READ -/

theorem TimeUnit.length_latched (t : TimeUnit) : t.latched.length = 34 := by
  simp [TimeUnit.latched, length_optional]

theorem TimeUnit.length_stages (t : TimeUnit) : t.stages.length = 26 := by
  simp [TimeUnit.stages, length_stageBytes]

/-- A trim is read back from its four bytes. -/
theorem toInt_beSigned_four {x : Int} (hlow : -200000 ≤ x) (hhigh : x ≤ 200000) :
    (BitVec.ofNat 32 (ofBytes (beSigned 4 x))).toInt = x := by
  rw [beSigned, ofBytes_beBytes, BitVec.toInt_ofNat', Int.bmod_def]
  norm_num
  omega

/-- A flag byte has the one bit that it is named for. -/
@[simp] theorem testBit_bitByte {i : Nat} (hi : i < 8) (b : Bool) (j : Nat) :
    (bitByte i b).toNat.testBit j = (b && decide (i = j)) := by
  cases b
  · simp [bitByte]
  · have : 2 ^ i < 256 := Nat.pow_lt_pow_right (by norm_num) hi
    simp [bitByte, Nat.mod_eq_of_lt this, Nat.testBit_two_pow]

/-- What a TIME_READ returns stands field by field (R32, R180). -/
theorem timeFields_latched_stages (t : TimeUnit) : timeFields (t.latched ++ t.stages) t := by
  have hperiod : (optional 6 (t.period.map beTime)).length = 7 := length_optional length_beTime _
  refine ⟨?_, ?_, ?_, ?_, ?_, ?_, ?_, ?_, ?_, ?_, ?_, ?_, ?_⟩
  · simp [TimeUnit.latched]
  · simp [TimeUnit.latched, bytesAt_append_right]
  · intro hlow hhigh
    rw [← toInt_beSigned_four hlow hhigh]
    simp [TimeUnit.latched, bytesAt_append_right]
  · simp [TimeUnit.latched, bytesAt_append_right, -Nat.testBit_zero]
  · simp [TimeUnit.latched, bytesAt_append_right]
  · simp [TimeUnit.latched, bytesAt_append_right]
  · refine (optField_drop _ 17 0 6 _).mp ?_
    have hplace : (t.latched ++ t.stages).drop 17 = optional 6 (t.period.map beTime)
        ++ (beBytes 2 t.edgesSeen ++ beBytes 1 t.missed ++ beTime t.schedule.target ++ [byteOf t.schedule.mask.toNat]
          ++ t.stages) := by
      simp [TimeUnit.latched, drop_append_past]
    rw [hplace]
    exact optField_optional length_beTime (fun v _ => ofBytes_beTime v) _ _
  · intro h
    simp [TimeUnit.latched, bytesAt_append_right, bytesAt_cons_succ, hperiod, ofBytes_beBytes_of_lt (n := 2) h]
  · intro h
    simp [TimeUnit.latched, bytesAt_append_right, bytesAt_cons_succ, hperiod, ofBytes_beBytes_of_lt (n := 1) h]
  · simp [TimeUnit.latched, bytesAt_append_right, bytesAt_cons_succ, hperiod]
  · have := t.schedule.mask.isLt
    simp [TimeUnit.latched, bytesAt_append_right, bytesAt_cons_succ, hperiod, byteOf]
    omega
  · rw [stageFields_drop, drop_append_past _ (by rw [t.length_latched]), t.length_latched]
    exact stageFields_stageBytes t.latest _
  · rw [stageFields_drop, drop_append_past _ (by rw [t.length_latched]; omega), t.length_latched, TimeUnit.stages,
      drop_append_past _ (by rw [length_stageBytes]), length_stageBytes, ← List.append_nil (List.drop _ _)]
    exact stageFields_stageBytes t.previous []

/-- Settles O37: the capture steps of R28 with and without a TIME_READ in progress, and the time snapshot's fields. -/
theorem timeInputCapturesAroundATimeRead : Obligations.TimeInputCapturesAroundATimeRead := by
  refine ⟨fun t => ⟨t.length_latched, t.length_stages, timeFields_latched_stages t⟩, fun s => ⟨fun ht => ⟨?_, ?_⟩,
    fun ht => ⟨?_, ?_⟩, fun dev ha => ?_, fun n => ⟨fun ht => ?_, fun ht => ⟨?_, ?_, ?_⟩⟩⟩⟩
  · intro hr
    simp [exec, execTinRisingEdge, ht, State.applyCapture, TimeUnit.countEdge, TimeUnit.capture, TimeUnit.stamp, hr]
  · intro l hr hl
    simp [exec, execTinRisingEdge, ht, State.applyCapture, TimeUnit.countEdge, TimeUnit.capture, TimeUnit.stamp, hr, hl,
      causePps]
  · intro hh
    simp [exec, execTinRisingEdge, ht, TimeUnit.countEdge, TimeUnit.hold, TimeUnit.stamp, hh]
  · intro hh
    simp [exec, execTinRisingEdge, ht, TimeUnit.countEdge, TimeUnit.hold, TimeUnit.stamp, hh, Option.isSome_iff_ne_none]
  · exact congrArg Host.Outcome.next (State.transfer_of_addressed ha _)
  · exact congrArg Host.Outcome.next (State.endTimeRead_of_idle ht n)
  · intro hh
    simp [exec, execTimeReadRelease, State.endTimeRead, ht, State.applyHeld, hh, shiftOut_eq_shifted]
  · intro x hh hr
    simp [exec, execTimeReadRelease, State.endTimeRead, ht, State.applyHeld, hh, shiftOut_eq_shifted,
      State.applyCapture, TimeUnit.capture, hr]
  · intro x l hh hr hl
    simp [exec, execTimeReadRelease, State.endTimeRead, ht, State.applyHeld, hh, shiftOut_eq_shifted,
      State.applyCapture, TimeUnit.capture, hr, hl, causePps]

end Sys2Proof.Machine


/-! Notices and station status (chapter 9, section 9.2; chapter 10, section 10.2): raises, reports and acknowledgements,
and the fields of the status record. -/

namespace Sys2Proof.Machine

/-! ### Marks -/

theorem Notice.raiseBit_detail (x : Notice) {i : Nat} (hi : i < 8) {j : Nat} (hj : j < 8) :
    (x.raiseBit i).detail.getLsbD j = (x.detail.getLsbD j || decide (j = i)) := by
  have hlt : 2 ^ i < 256 := Nat.pow_lt_pow_right (by norm_num) hi
  simp only [Notice.raiseBit, Notice.raiseWith, BitVec.getLsbD_or, BitVec.getLsbD_ofNat, Nat.testBit_two_pow, hj,
    decide_true, Bool.true_and, eq_comm]

theorem NoticeSet.marked_get (n : NoticeSet) (k : NoticeKind) : n.marked.get k = (n.get k).marked := by
  cases k <;> rfl

/-- An ACK's act on one kind: the kind itself where its bit is set, and no other. -/
theorem NoticeSet.acked_step_get (n : NoticeSet) (kinds : Byte) (j k : NoticeKind) :
    (if kinds.getLsbD j.toNat then n.set j (n.get j).acked else n).get k
      = if k = j ∧ kinds.getLsbD k.toNat then (n.get k).acked else n.get k := by
  by_cases hj : k = j
  · subst hj
    by_cases hk : kinds.getLsbD k.toNat = true <;> simp [hk]
  · by_cases hk : kinds.getLsbD j.toNat = true
    · simp [hk, hj, NoticeSet.get_set_of_ne n _ hj]
    · simp [hk, hj]

theorem NoticeSet.acked_foldl_get (kinds : Byte) (k : NoticeKind) : ∀ (l : List NoticeKind) (n : NoticeSet), l.Nodup →
    (l.foldl (fun n j => if kinds.getLsbD j.toNat then n.set j (n.get j).acked else n) n).get k
      = if k ∈ l ∧ kinds.getLsbD k.toNat then (n.get k).acked else n.get k
  | [], n, _ => by simp
  | j :: l, n, h => by
    obtain ⟨hj, hl⟩ := List.nodup_cons.mp h
    rw [List.foldl_cons, NoticeSet.acked_foldl_get kinds k l _ hl, NoticeSet.acked_step_get]
    by_cases hkj : k = j
    · subst hkj
      simp [hj]
    · simp [hkj]

/-- An ACK acts on each kind by itself (R158). -/
theorem NoticeSet.acked_get (n : NoticeSet) (kinds : Byte) (k : NoticeKind) :
    (n.acked kinds).get k = if kinds.getLsbD k.toNat then (n.get k).acked else n.get k := by
  rw [NoticeSet.acked, NoticeSet.acked_foldl_get kinds k _ _ (by decide)]
  simp only [NoticeKind.mem_all, true_and]

/-! ### Station status -/

theorem length_noticeBytes (g : Image) (n : NoticeSet) (k : NoticeKind) : (noticeBytes g n k).length = 2 := rfl

theorem State.length_portStatus (s : State) (p : Port) : (s.portStatus p).length = 7 := rfl

/-- The first 14 bytes of the station status (R180). -/
def State.statusHead (s : State) : List Byte :=
  let g := s.image
  let l := s.slc.last
  [byteOf ((if s.inService then 1 else 0) + 2 * roleBits s.draws g), g.stationNumber, g.startNumber,
   l.transfer.elim 255 (fun t => byteOf t.type.toNat), l.transfer.elim 0 (fun t => if t.type = 0 then t.code else 0),
   byteOf l.result.toNat, byteOf (l.failing.getD 0)]
  ++ beBytes 2 s.fe.freeBuffers ++ beBytes 2 s.lpc.nextSequence.toNat
  ++ [bitByte 0 s.rc.full ||| bitByte 1 s.alarm, byteOf s.lpc.queue.length,
      byteOf (s.topNotice.elim 0 (fun k => k.toNat + 1))]

theorem State.status_eq (s : State) (mask : BitVec 5) :
    s.status mask = s.statusHead ++ (NoticeKind.all.map (noticeBytes s.image s.snu.notices)).flatten
      ++ ((portsOf mask).map s.portStatus).flatten := rfl

theorem State.length_statusHead (s : State) : s.statusHead.length = 14 := by
  simp [State.statusHead]

theorem State.length_status (s : State) (mask : BitVec 5) : (s.status mask).length = 26 + 7 * (portsOf mask).length := by
  rw [State.status_eq, List.length_append, List.length_append, State.length_statusHead,
    length_flatten_map (length_noticeBytes _ _), length_flatten_map s.length_portStatus]
  rfl

theorem State.bytesAt_status (s : State) (mask : BitVec 5) {i n : Nat} (h : i + n ≤ 14) :
    bytesAt (s.status mask) i n = bytesAt s.statusHead i n := by
  rw [State.status_eq, List.append_assoc, bytesAt_append_left _ (by rw [State.length_statusHead]; exact h)]

/-- The marks byte of a kind shows its three marks and its enable (R180). -/
theorem noticeBytes_fields (g : Image) (n : NoticeSet) (k : NoticeKind) :
    let m := bytesAt (noticeBytes g n k) 0 1
    m.testBit 0 = (n.get k).pending ∧ m.testBit 1 = (n.get k).reported ∧ m.testBit 2 = (n.get k).setSinceReport
      ∧ m.testBit 3 = g.enablesNotice k.toNat ∧ bytesAt (noticeBytes g n k) 1 1 = (n.get k).detail.toNat := by
  refine ⟨?_, ?_, ?_, ?_, ?_⟩ <;>
    simp [noticeBytes, bytesAt_cons_succ, -Nat.testBit_zero]

theorem roleBits_lt (draw : Nat) (g : Image) : roleBits draw g < 4 := by
  unfold roleBits
  split
  · have := Role.toNat_lt ‹Role›
    omega
  · exact BitVec.isLt _

theorem roleBits_of_named (draw : Nat) {g : Image} (h : g.role.toNat ≤ 2) : roleBits draw g = g.role.toNat := by
  obtain ⟨r, hr⟩ : ∃ r : Role, r.toNat = g.role.toNat := by
    rcases (by omega : g.role.toNat = 0 ∨ g.role.toNat = 1 ∨ g.role.toNat = 2) with h | h | h
    · exact ⟨.source, h.symm⟩
    · exact ⟨.floor, h.symm⟩
    · exact ⟨.relay, h.symm⟩
  have hnamed : Role.ofByte? g.role = some r := by
    rw [← (Role.ofByte?_eq_some_iff g.role.isLt r).mpr hr, BitVec.ofNat_toNat, BitVec.setWidth_eq]
  rw [roleBits, hnamed]
  exact hr

/-- The station status, field by field (R164, R180). -/
theorem statusFields_status (s : State) (mask : BitVec 5) : statusFields (s.status mask) s := by
  have hrole := roleBits_lt s.draws s.image
  refine ⟨?_, fun h => ?_, ?_, ?_, fun h => ?_, fun x hx => ?_, ?_, fun h => ?_, fun i hi hlt => ?_, ?_, ?_, ?_, ?_,
    fun h => ?_, ?_, fun i k hk => ?_⟩
  · rw [s.bytesAt_status mask (by omega)]
    simp only [State.statusHead, List.cons_append, bytesAt_cons_zero, byteOf, BitVec.toNat_ofNat,
      Nat.testBit_eq_decide_div_mod_eq]
    cases s.inService <;> simp
  · rw [s.bytesAt_status mask (by omega)]
    simp only [State.statusHead, List.cons_append, bytesAt_cons_zero, byteOf, BitVec.toNat_ofNat, roleBits_of_named _ h]
    cases s.inService <;> simp <;> omega
  · rw [s.bytesAt_status mask (by omega)]
    simp [State.statusHead, bytesAt_cons_succ]
  · rw [s.bytesAt_status mask (by omega)]
    simp [State.statusHead, bytesAt_cons_succ]
  · rw [s.bytesAt_status mask (by omega), s.bytesAt_status mask (by omega)]
    simp [State.statusHead, bytesAt_cons_succ, h]
  · rw [s.bytesAt_status mask (by omega), s.bytesAt_status mask (by omega)]
    have := x.type.isLt
    simp only [State.statusHead, List.cons_append, bytesAt_cons_succ, bytesAt_cons_zero, hx, byteOf, Option.elim_some,
      BitVec.toNat_ofNat]
    exact ⟨by omega, by split <;> rfl⟩
  · rw [s.bytesAt_status mask (by omega)]
    cases h : s.slc.last.result <;> simp [State.statusHead, bytesAt_cons_succ, h, byteOf, Result.toNat]
  · rw [s.bytesAt_status mask (by omega)]
    simp [State.statusHead, bytesAt_cons_succ, h, byteOf]
  · rw [s.bytesAt_status mask (by omega)]
    simpa [State.statusHead, bytesAt_cons_succ, hi, byteOf] using hlt
  · rw [s.bytesAt_status mask (by omega)]
    have hfree : ofBytes (beBytes 2 s.fe.freeBuffers) = 256 - s.fe.pool.length :=
      ofBytes_beBytes_of_lt (n := 2) (Nat.lt_of_le_of_lt (Nat.sub_le 256 s.fe.pool.length) (by norm_num))
    simp [State.statusHead, bytesAt_cons_succ, hfree]
  · rw [s.bytesAt_status mask (by omega)]
    have hnext := ofBytes_beBytes_of_lt (n := 2) (lt_of_lt_of_le s.lpc.nextSequence.isLt (by norm_num))
    simp [State.statusHead, bytesAt_cons_succ, bytesAt_append_right, hnext]
  · rw [s.bytesAt_status mask (by omega)]
    simp [State.statusHead, bytesAt_cons_succ, bytesAt_append_right, -Nat.testBit_zero]
  · rw [s.bytesAt_status mask (by omega)]
    simp [State.statusHead, bytesAt_cons_succ, bytesAt_append_right]
  · rw [s.bytesAt_status mask (by omega)]
    simpa [State.statusHead, bytesAt_cons_succ, bytesAt_append_right, byteOf] using h
  · rw [s.bytesAt_status mask (by omega)]
    have htop : bytesAt s.statusHead 13 1 = s.topNotice.elim 0 (fun k => k.toNat + 1) := by
      simp only [State.statusHead, List.cons_append, List.nil_append, List.append_assoc, bytesAt_cons_succ,
        bytesAt_append_right, length_beBytes, Nat.reduceLeDiff, Nat.reduceSub, bytesAt_cons_zero, byteOf,
        BitVec.toNat_ofNat]
      cases s.topNotice with
      | none => rfl
      | some k => cases k <;> rfl
    rw [htop]
    cases s.topNotice with
    | none => rfl
    | some k => cases k <;> rfl
  · obtain ⟨rfl, hplace⟩ : i = k.toNat ∧ NoticeKind.all[i]? = some k := by
      have hi : i < 6 := (List.getElem?_eq_some_iff.mp hk).1
      refine ⟨?_, hk⟩
      interval_cases i <;> cases hk <;> rfl
    have hbyte {j : Nat} (hj : j < 2) :
        bytesAt (s.status mask) (14 + 2 * k.toNat + j) 1 = bytesAt (noticeBytes s.image s.snu.notices k) j 1 := by
      have hk6 : k.toNat < 6 := (List.getElem?_eq_some_iff.mp hplace).1
      rw [State.status_eq, bytesAt_append_left _ (by
          rw [List.length_append, State.length_statusHead, length_flatten_map (length_noticeBytes _ _)]
          simp only [NoticeKind.all, List.length_cons, List.length_nil]
          omega),
        bytesAt_append_right _ _ (by rw [State.length_statusHead]; omega), State.length_statusHead, Nat.add_assoc,
        Nat.add_sub_cancel_left, bytesAt_flatten_map (length_noticeBytes _ _) hplace (by omega)]
    obtain ⟨hpending, hreported, hset, henabled, hdetail⟩ := noticeBytes_fields s.image s.snu.notices k
    have hmarks := hbyte (j := 0) (by omega)
    have hbyte' := hbyte (j := 1) (by omega)
    rw [Nat.add_zero] at hmarks
    rw [Nat.add_right_comm] at hbyte'
    dsimp only
    rw [hmarks, hbyte']
    exact ⟨hpending, hreported, hset, henabled, hdetail⟩

/-! ### What the status says of a port -/

theorem portFields_drop (rec : List Byte) (o : Nat) (r : LinkRecord) (q : EgressQueue) :
    portFields rec o r q ↔ portFields (rec.drop o) 0 r q := by
  simp [portFields, bytesAt_drop]

theorem portFields_portStatus (s : State) (p : Port) (rest : List Byte) :
    portFields (s.portStatus p ++ rest) 0 (s.link p) (s.queue p) := by
  refine ⟨?_, ?_, fun h => ?_, fun n h hn => ?_, fun h => ?_⟩
  · cases h : (s.link p).state <;> simp [State.portStatus, h, byteOf, LinkState.toNat]
  · cases h : (s.link p).fadeCause with
    | none => simp [State.portStatus, bytesAt_cons_succ, h, byteOf]
    | some c => cases c <;> simp [State.portStatus, bytesAt_cons_succ, h, byteOf, FadeCause.toNat]
  · simp [State.portStatus, bytesAt_cons_succ, h, byteOf]
  · simpa [State.portStatus, bytesAt_cons_succ, h, byteOf] using hn
  · rw [EgressQueue.size] at h
    simp [State.portStatus, bytesAt_cons_succ, byteOf]
    omega

theorem portFields_status (s : State) (mask : BitVec 5) {i : Nat} {p : Port} (h : (portsOf mask)[i]? = some p) :
    portFields (s.status mask) (26 + 7 * i) (s.link p) (s.queue p) := by
  obtain ⟨rest, hrest⟩ := drop_flatten_map s.length_portStatus h
  have hlen : (s.statusHead ++ (NoticeKind.all.map (noticeBytes s.image s.snu.notices)).flatten).length = 26 := by
    rw [List.length_append, State.length_statusHead, length_flatten_map (length_noticeBytes _ _)]
    rfl
  rw [portFields_drop, State.status_eq, drop_append_past _ (by rw [hlen]; omega), hlen, Nat.add_sub_cancel_left, hrest]
  exact portFields_portStatus s p rest

/-! ### The obligation -/

/-- Settles O35: the marks of a notice by R155 to R158, and the status record by its fields. -/
theorem noticesAreRaisedReportedAndAcknowledged : Obligations.NoticesAreRaisedReportedAndAcknowledged := by
  refine ⟨fun x i hi => ⟨rfl, fun j hj => x.raiseBit_detail hi hj, ?_, ?_⟩,
    fun s mask => ⟨s.length_status mask, statusFields_status s mask, fun i p h => portFields_status s mask h⟩,
    fun dev s ha => ⟨fun mask clocks => ?_, fun kinds => ⟨fun hc => ?_, fun hs hk => ?_, fun hs hk => ?_⟩⟩⟩
  · simp [Notice.acked, Notice.raiseBit, Notice.raiseWith]
  · simp [Notice.raiseBit, Notice.raiseWith]
  · refine ⟨_, congrArg Host.Outcome.next (State.transfer_of_addressed ha _), ?_, fun k => ⟨fun h => ?_, fun h => ?_⟩⟩
    · simp only [State.read, State.setNotices, State.drew, shiftOut_eq_shifted]
    · exact (NoticeSet.marked_get s.snu.notices k).trans (if_pos h)
    · exact (NoticeSet.marked_get s.snu.notices k).trans (if_neg (by simp [h]))
  · exact congrArg Host.Outcome.next ((State.transfer_of_addressed ha _).trans (serviceCommand_of_config hc _ _))
  · refine congrArg Host.Outcome.next ((State.transfer_of_addressed ha _).trans
      ((serviceCommand_of_service hs _ _).trans (if_pos hk)))
  · refine ⟨s.snu.notices.acked kinds, congrArg Host.Outcome.next ((State.transfer_of_addressed ha _).trans
      ((serviceCommand_of_service hs _ _).trans (if_neg (Nat.not_le.mpr hk)))), fun k => ⟨?_, ?_⟩⟩
    · rintro ⟨hbit, hp, hr, hset⟩
      simp [NoticeSet.acked_get, hbit, Notice.acked, hp, hr, hset, Notice.empty]
    · intro h
      rw [NoticeSet.acked_get, Notice.acked]
      rcases h with h | h | h | h <;> simp [h]

end Sys2Proof.Machine


/-! The tables that the reads return (chapter 10, section 10.2; chapter 11, section 11.3.1): a field of a table's record
stands where the record begins. -/

namespace Sys2Proof.Machine

/-! ### Fields -/

theorem marginField_drop (rec : List Byte) (k i : Nat) (x : Option Int) :
    marginField (rec.drop k) i x ↔ marginField rec (k + i) x := by
  simp [marginField, bytesAt_drop, Nat.add_assoc]

theorem timerField_drop (rec : List Byte) (k i : Nat) (x : Option (Time × Nat)) :
    timerField (rec.drop k) i x ↔ timerField rec (k + i) x := by
  simp [timerField, bytesAt_drop, Nat.add_assoc]

theorem linkFields_drop (rec : List Byte) (k : Nat) (g : Image) (r : LinkRecord) :
    linkFields (rec.drop k) 0 g r ↔ linkFields rec k g r := by
  simp [linkFields, bytesAt_drop, optField_drop, marginField_drop, timerField_drop]

theorem costFields_drop (rec : List Byte) (k : Nat) (e : CostEntry) :
    costFields (rec.drop k) 0 e ↔ costFields rec k e := by
  simp [costFields, bytesAt_drop, optField_drop, Nat.add_assoc]

theorem slotFields_drop (rec : List Byte) (k : Nat) (t : Slot) :
    slotFields (rec.drop k) 0 t ↔ slotFields rec k t := by
  simp [slotFields, bytesAt_drop]

theorem ringFields_drop (rec : List Byte) (k : Nat) (e : RingEntry) :
    ringFields (rec.drop k) 0 e ↔ ringFields rec k e := by
  simp [ringFields, bytesAt_drop]

theorem raceFields_drop (rec : List Byte) (k : Nat) (r : RaceStats) (won lost : Counter) :
    raceFields (rec.drop k) 0 r won lost ↔ raceFields rec k r won lost := by
  simp [raceFields, bytesAt_drop]

/-- A margin that may be none shows its presence byte and its signed byte (R180). -/
theorem marginField_optional (x : Option Int) (rest : List Byte) :
    marginField (optional 1 (x.map (beSigned 1)) ++ rest) 0 x := by
  cases x with
  | none => exact ⟨fun _ => by simp [optional, bytesAt_cons_succ], fun m hm => by cases hm⟩
  | some m =>
    refine ⟨fun hm => (by cases hm), fun y hy hin => ?_⟩
    obtain rfl := Option.some.inj hy
    simp [optional, bytesAt_cons_succ, signedByte_beSigned hin]

theorem length_timerBytes (draw which : Nat) (p : Port) (x : Option (Time × Nat)) :
    (timerBytes draw which p x).length = 13 := by
  rcases x with _ | ⟨t, d⟩ <;> simp [timerBytes]

theorem timerField_timerBytes (draw which : Nat) (p : Port) (x : Option (Time × Nat)) (rest : List Byte) :
    timerField (timerBytes draw which p x ++ rest) 0 x := by
  rcases x with _ | ⟨t, d⟩
  · exact ⟨fun _ => by simp [timerBytes], fun t d h => by cases h⟩
  · refine ⟨fun h => (by cases h), fun t' d' h hd => ?_⟩
    obtain ⟨rfl, rfl⟩ : t = t' ∧ d = d' := by simpa using h
    have hduration := ofBytes_beBytes_of_lt (n := 6) (v := d) (by omega)
    simp [timerBytes, bytesAt_cons_succ, bytesAt_append_right, hduration]

/-- A word's bytes are read back as the word. -/
theorem ofBytes_beBytes_toNat {w n : Nat} (x : BitVec w) (h : w = 8 * n) : ofBytes (beBytes n x.toNat) = x.toNat := by
  subst h
  exact ofBytes_beBytes_of_lt (lt_of_lt_of_eq x.isLt (Nat.pow_mul 2 8 n))

/-! ### Race Ring, race statistics and Seen Table -/

theorem RingEntry.length_bytes (e : RingEntry) : e.bytes.length = 11 := by
  simp [RingEntry.bytes]

theorem ringFields_bytes (e : RingEntry) (rest : List Byte) : ringFields (e.bytes ++ rest) 0 e := by
  have hsequence := ofBytes_beBytes_of_lt (n := 2) (lt_of_lt_of_le e.sequence.isLt (by norm_num))
  refine ⟨fun h => ?_, ?_, ?_, fun p h => ?_, fun h => ?_, ?_⟩
  · simpa [RingEntry.bytes, byteOf] using h
  · simp [RingEntry.bytes, bytesAt_cons_succ]
  · simp [RingEntry.bytes, bytesAt_cons_succ, hsequence]
  · have := portNumber_lt p
    simp [RingEntry.bytes, bytesAt_cons_succ, bytesAt_append_right, byteOf, h, Origin.toNat]
    omega
  · simp [RingEntry.bytes, bytesAt_cons_succ, bytesAt_append_right, byteOf, h, Origin.toNat]
  · simp [RingEntry.bytes, bytesAt_cons_succ, bytesAt_append_right]

theorem State.length_raceBytes (s : State) (p : Port) : (s.raceBytes p).length = 24 := by
  simp [State.raceBytes]

theorem raceFields_raceBytes (s : State) (p : Port) (rest : List Byte) :
    raceFields (s.raceBytes p ++ rest) 0 (s.af.race.get p) (s.snu.counter (.port p .won))
      (s.snu.counter (.port p .lost)) := by
  have hcounter (c : Counter) : ofBytes (beBytes 4 c.value.toNat) = c.value.toNat :=
    ofBytes_beBytes_of_lt (lt_of_lt_of_le c.value.isLt (by norm_num))
  refine ⟨fun h => ?_, fun h => ?_, fun h => ?_, ?_, ?_⟩
  · simp [State.raceBytes, ofBytes_beBytes_of_lt (n := 6) (lt_of_lt_of_le h (by norm_num))]
  · simp [State.raceBytes, bytesAt_append_right, ofBytes_beBytes_of_lt (n := 4) (lt_of_lt_of_le h (by norm_num))]
  · simp [State.raceBytes, bytesAt_append_right, ofBytes_beBytes_of_lt (n := 6) (lt_of_lt_of_le h (by norm_num))]
  · simp [State.raceBytes, bytesAt_append_right, hcounter]
  · simp [State.raceBytes, bytesAt_append_right, hcounter]

theorem Slot.length_bytes (t : Slot) : t.bytes.length = 74 := by
  simp [Slot.bytes]

theorem slotFields_bytes (t : Slot) (rest : List Byte) : slotFields (t.bytes ++ rest) 0 t := by
  have hhighest := ofBytes_beBytes_of_lt (n := 2) (lt_of_lt_of_le t.highest.isLt (by norm_num))
  have hwindow := ofBytes_beBytes_toNat t.window (n := 64) rfl
  refine ⟨fun h => ?_, ?_, ?_, fun i _ => ?_, ?_⟩
  · simpa [Slot.bytes, byteOf] using h
  · simp [Slot.bytes, bytesAt_cons_succ]
  · simp [Slot.bytes, bytesAt_cons_succ, hhighest]
  · simp [Slot.bytes, bytesAt_cons_succ, bytesAt_append_right, hwindow, BitVec.testBit_toNat]
  · simp [Slot.bytes, bytesAt_cons_succ, bytesAt_append_right]

theorem length_slotBytes (draw i : Nat) (t : Option Slot) : (slotBytes draw i t).length = 74 := by
  cases t with
  | none => simp [slotBytes]
  | some t => exact t.length_bytes

/-! ### Cost Table -/

theorem byteOf_toNat {n : Nat} (h : n < 256) : (byteOf n).toNat = n := by
  rw [byteOf, BitVec.toNat_ofNat, Nat.mod_eq_of_lt h]

/-- A number of one byte that may be none (R180). -/
theorem optField_byte {α : Type} (g : α → Nat) (x : Option α) (rest : List Byte) :
    optField (optional 1 (x.map (fun a => [byteOf (g a)])) ++ rest) 0 1 (x.map g) :=
  optField_optional (f := fun a => [byteOf (g a)]) (fun _ => rfl)
    (fun _ h => by rw [ofBytes_singleton, byteOf_toNat h]) x rest

theorem length_optional_byte {α : Type} (g : α → Nat) (x : Option α) :
    (optional 1 (x.map (fun a => [byteOf (g a)]))).length = 2 :=
  length_optional (f := fun a => [byteOf (g a)]) (fun _ => rfl) x

theorem length_heardBytes (v : PerPort Nat) : (v.toList.map (beBytes 3)).flatten.length = 15 := by
  rw [length_flatten_map (length_beBytes 3)]
  rfl

theorem CostEntry.length_bytes (e : CostEntry) : e.bytes.length = 26 := by
  simp [CostEntry.bytes, length_heardBytes, length_optional, -List.length_flatten]

theorem PerPort.toList_getElem? {α : Type} (v : PerPort α) (q : Port) : v.toList[q.toNat]? = some (v.get q) := by
  cases q <;> rfl

theorem costFields_bytes (e : CostEntry) (rest : List Byte) : costFields (e.bytes ++ rest) 0 e := by
  have hheard := length_heardBytes e.heard
  have hbest : (optional 1 (e.best.map (fun p => [byteOf p.toNat]))).length = 2 := length_optional_byte _ _
  have hsecond : (optional 1 (e.second.map (fun p => [byteOf p.toNat]))).length = 2 := length_optional_byte _ _
  refine ⟨fun h => ?_, fun q h => ?_, fun h => ?_, ?_, ?_, fun h => ?_⟩
  · simpa [CostEntry.bytes, byteOf] using h
  · have hq := portNumber_lt q
    have hfield := bytesAt_flatten_map (length_beBytes 3) (e.heard.toList_getElem? q) (i := 0) (n := 3) (by omega)
    rw [CostEntry.bytes, List.append_assoc, List.append_assoc, List.append_assoc, List.append_assoc,
      List.append_assoc, List.singleton_append, Nat.add_right_comm, bytesAt_cons_succ,
      bytesAt_append_left _ (by rw [hheard]; omega), Nat.zero_add, ← Nat.add_zero (3 * _), hfield, bytesAt_self (by simp),
      ofBytes_beBytes_of_lt (by omega)]
  · have hown := ofBytes_beBytes_of_lt (n := 3) (v := e.own) (by omega)
    simp [CostEntry.bytes, bytesAt_cons_succ, bytesAt_append_right, hheard, hown, -List.length_flatten]
  · have hplace : (e.bytes ++ rest).drop (0 + 19) = optional 1 (e.best.map (fun p => [byteOf p.toNat]))
        ++ (optional 1 (e.second.map (fun p => [byteOf p.toNat])) ++ (beBytes 3 e.secondCost ++ rest)) := by
      simp [CostEntry.bytes, drop_append_past, hheard, -List.length_flatten]
    rw [← Nat.add_zero (0 + 19), ← optField_drop, hplace]
    exact optField_byte Port.toNat e.best _
  · have hplace : (e.bytes ++ rest).drop (0 + 21) = optional 1 (e.second.map (fun p => [byteOf p.toNat]))
        ++ (beBytes 3 e.secondCost ++ rest) := by
      simp [CostEntry.bytes, drop_append_past, hheard, hbest, -List.length_flatten]
    rw [← Nat.add_zero (0 + 21), ← optField_drop, hplace]
    exact optField_byte Port.toNat e.second _
  · have hcost := ofBytes_beBytes_of_lt (n := 3) (v := e.secondCost) (by omega)
    simp [CostEntry.bytes, bytesAt_cons_succ, bytesAt_append_right, hheard, hbest, hsecond, hcost, -List.length_flatten]

/-! ### Link records -/

theorem length_linkBytes (draw : Nat) (g : Image) (p : Port) (r : LinkRecord) : (linkBytes draw g p r).length = 78 := by
  unfold linkBytes
  simp [length_optional, length_timerBytes]

theorem flagByte_toNat (b : Bool) : (flagByte b).toNat = if b then 0 else 1 := by
  cases b <;> rfl

/-- A number of `n` bytes that may be none (R180). -/
theorem optField_number (n : Nat) (x : Option Nat) (rest : List Byte) :
    optField (optional n (x.map (beBytes n)) ++ rest) 0 n x := by
  have h := optField_optional (g := id) (length_beBytes n) (fun _ => ofBytes_beBytes_of_lt) x rest
  rwa [Option.map_id, id] at h

theorem LinkRecord.effective_of_none {r : LinkRecord} (h : r.near = none ∨ r.far = none) : r.effective = none := by
  rcases h with h | h
  · rw [LinkRecord.effective, h]
  · rw [LinkRecord.effective, h]
    cases r.near <;> rfl

theorem linkFields_linkBytes (draw : Nat) (g : Image) (p : Port) (r : LinkRecord) (rest : List Byte) :
    linkFields (linkBytes draw g p r ++ rest) 0 g r := by
  unfold linkFields
  refine ⟨?_, ?_, ?_, ?_, ?_, ?_, ?_, ?_, fun h => ?_, fun l h => ?_, ?_, ?_, fun h => ?_, ?_, ?_, ?_, fun h => ?_,
    fun m f hm hf => ?_, ?_, fun h => ?_, fun h => ?_, ?_, ?_, ?_, fun h => ?_⟩
  · unfold linkBytes
    simp [flagByte_toNat]
  · refine (optField_drop _ 1 0 1 _).mp ?_
    unfold linkBytes
    simp
    exact optField_byte Prod.fst r.neighbour _
  · refine (optField_drop _ 3 0 1 _).mp ?_
    unfold linkBytes
    simp [length_optional]
    exact optField_byte (fun n => n.2.toNat) r.neighbour _
  · refine (optField_drop _ 5 0 1 _).mp ?_
    unfold linkBytes
    simp [drop_append_past, length_optional]
    exact optField_byte Role.toNat r.neighbourRole _
  · refine (optField_drop _ 7 0 1 _).mp ?_
    unfold linkBytes
    simp [drop_append_past, length_optional]
    exact optField_byte LinkState.toNat r.neighbourState _
  · unfold linkBytes
    simp [bytesAt_append_right, bytesAt_cons_succ, length_optional, flagByte_toNat, LinkRecord.partnerDrained]
  · unfold linkBytes
    simp [bytesAt_append_right, bytesAt_cons_succ, length_optional, flagByte_toNat]
  · unfold linkBytes
    simp [bytesAt_append_right, bytesAt_cons_succ, length_optional]
  · unfold linkBytes
    simp [bytesAt_append_right, bytesAt_cons_succ, length_optional, h]
    exact bytesAt_zero_cons_replicate 13 _
  · unfold linkBytes
    simp [bytesAt_append_right, bytesAt_cons_succ, length_optional, h]
    simp [optional, bytesAt_cons_succ, bytesAt_append_right]
  · refine (timerField_drop _ 26 0 _).mp ?_
    unfold linkBytes
    simp [drop_append_past, length_optional]
    exact timerField_timerBytes draw 0 p _ _
  · refine (optField_drop _ 39 0 3 _).mp ?_
    unfold linkBytes
    simp [drop_append_past, length_optional, length_timerBytes]
    exact optField_number 3 r.delay _
  · unfold linkBytes
    simp [bytesAt_append_right, bytesAt_cons_succ, length_optional, length_timerBytes, byteOf_toNat h]
  · refine (marginField_drop _ 44 0 _).mp ?_
    unfold linkBytes
    simp [drop_append_past, length_optional, length_timerBytes]
    exact marginField_optional r.far _
  · have := r.profile.isLt
    unfold linkBytes
    simp [bytesAt_append_right, bytesAt_cons_succ, length_optional, length_timerBytes]
    exact byteOf_toNat (by omega)
  · refine (marginField_drop _ 47 0 _).mp ?_
    unfold linkBytes
    simp [drop_append_past, length_optional, length_timerBytes]
    exact marginField_optional r.near _
  · have he := LinkRecord.effective_of_none h
    unfold linkBytes
    simp [bytesAt_append_right, bytesAt_cons_succ, length_optional, length_timerBytes, he]
    exact bytesAt_zero_cons_replicate 1 _
  · refine (marginField_drop _ 49 0 _).mp ?_
    have he : r.effective = some (min m f) := by
      simp [LinkRecord.effective, hm, hf]
    unfold linkBytes
    simp only [he]
    simp [drop_append_past, length_optional, length_timerBytes]
    exact marginField_optional (some (min m f)) _
  · unfold linkBytes
    simp [bytesAt_append_right, bytesAt_cons_succ, length_optional, length_timerBytes]
    have hs := r.state.toNat_lt
    exact byteOf_toNat (by omega)
  · unfold linkBytes
    simp [bytesAt_append_right, bytesAt_cons_succ, length_optional, length_timerBytes, h]
    exact bytesAt_zero_cons_replicate 1 _
  · obtain ⟨c, hc⟩ := Option.ne_none_iff_exists'.mp h
    unfold linkBytes
    simp [bytesAt_append_right, bytesAt_cons_succ, length_optional, length_timerBytes, hc]
    cases c <;> simp [optional, bytesAt_cons_succ, byteOf, FadeCause.toNat]
  · refine (optField_drop _ 54 0 2 _).mp ?_
    unfold linkBytes
    simp [drop_append_past, length_optional, length_timerBytes]
    exact optField_number 2 r.holdDuration _
  · refine (timerField_drop _ 57 0 _).mp ?_
    unfold linkBytes
    simp [drop_append_past, length_optional, length_timerBytes]
    exact timerField_timerBytes draw 1 p _ _
  · unfold linkBytes
    simp [bytesAt_append_right, bytesAt_cons_succ, length_optional, length_timerBytes]
  · have hremainder := ofBytes_beBytes_of_lt (n := 2) h
    unfold linkBytes
    simp [bytesAt_append_right, bytesAt_cons_succ, length_optional, length_timerBytes, hremainder]

/-! ### Whole tables -/

theorem linkFields_linkTable (s : State) (mask : BitVec 5) {i : Nat} {p : Port} (h : (portsOf mask)[i]? = some p) :
    linkFields (s.linkTable mask) (78 * i) s.image (s.link p) := by
  obtain ⟨rest, hrest⟩ := drop_flatten_map (fun p => length_linkBytes s.draws s.image p (s.link p)) h
  rw [← linkFields_drop, State.linkTable, hrest]
  exact linkFields_linkBytes s.draws s.image p (s.link p) rest

theorem raceFields_raceTable (s : State) (mask : BitVec 5) {i : Nat} {p : Port} (h : (portsOf mask)[i]? = some p) :
    raceFields (s.raceTable mask) (24 * i) (s.af.race.get p) (s.snu.counter (.port p .won))
      (s.snu.counter (.port p .lost)) := by
  obtain ⟨rest, hrest⟩ := drop_flatten_map s.length_raceBytes h
  rw [← raceFields_drop, State.raceTable, hrest]
  exact raceFields_raceBytes s p rest

theorem costFields_costTable (s : State) {i : Nat} {e : CostEntry} (h : s.rc.entries[i]? = some e) :
    costFields s.costTable (1 + 26 * i) e := by
  obtain ⟨rest, hrest⟩ := drop_flatten_map CostEntry.length_bytes h
  rw [← costFields_drop, State.costTable, Nat.add_comm, List.drop_succ_cons, hrest]
  exact costFields_bytes e rest

theorem ringFields_ringTable (s : State) {i : Nat} {e : RingEntry} (h : s.af.ring[i]? = some e) :
    ringFields s.ringTable (1 + 11 * i) e := by
  obtain ⟨rest, hrest⟩ := drop_flatten_map RingEntry.length_bytes h
  rw [← ringFields_drop, State.ringTable, Nat.add_comm, List.drop_succ_cons, hrest]
  exact ringFields_bytes e rest

/-- The Seen Table as one list of slots with their numbers. -/
theorem State.seenTable_eq (s : State) :
    s.seenTable = s.af.own.bytes
      ++ (s.af.slots.toList.zipIdx.map (fun x => slotBytes s.draws (x.2 + 1) x.1)).flatten := by
  rw [State.seenTable, List.mapIdx_eq_zipIdx_map]

theorem State.length_seenTable (s : State) : s.seenTable.length = 1184 := by
  rw [State.seenTable_eq, List.length_append, Slot.length_bytes, length_flatten_map (fun _ => length_slotBytes _ _ _)]
  simp

/-- Slot `i + 1` of the Seen Table stands at its place. -/
theorem State.drop_seenTable (s : State) (i : Fin 15) :
    ∃ rest, s.seenTable.drop (74 * (i.val + 1)) = slotBytes s.draws (i.val + 1) (s.af.slots.get i) ++ rest := by
  have hslot : s.af.slots.toList.zipIdx[i.val]? = some (s.af.slots.get i, i.val) := by
    simp
    rfl
  obtain ⟨rest, hrest⟩ := drop_flatten_map (f := fun x : Option Slot × Nat => slotBytes s.draws (x.2 + 1) x.1)
    (fun _ => length_slotBytes _ _ _) hslot
  refine ⟨rest, ?_⟩
  rw [State.seenTable_eq, drop_append_past _ (by rw [Slot.length_bytes]; omega), Slot.length_bytes, Nat.mul_succ,
    Nat.add_sub_cancel, hrest]

theorem slotFields_seenTable (s : State) {i : Fin 15} {t : Slot} (h : s.af.slots.get i = some t) :
    slotFields s.seenTable (74 * (i.val + 1)) t := by
  obtain ⟨rest, hrest⟩ := s.drop_seenTable i
  rw [← slotFields_drop, hrest, h]
  exact slotFields_bytes t rest

/-- A free slot shows origin 0 (R98, R114). -/
theorem free_slot_seenTable (s : State) {i : Fin 15} (h : s.af.slots.get i = none) :
    bytesAt s.seenTable (74 * (i.val + 1)) 1 = 0 := by
  obtain ⟨rest, hrest⟩ := s.drop_seenTable i
  rw [← Nat.add_zero (74 * _), ← bytesAt_drop, hrest, h]
  simp [slotBytes]

theorem slotFields_own (s : State) : slotFields s.seenTable 0 s.af.own :=
  slotFields_bytes s.af.own _

end Sys2Proof.Machine


/-! Counters by scope (chapter 9, section 9.1): what COUNTER_READ and the clearing commands do to each counter, and the
record of a scope. -/

namespace Sys2Proof.Machine

/-! ### Counters of a scope -/

/-- The scope of a counter (R148). -/
def CounterName.scope : CounterName → Scope
  | .port p _ => .port p
  | .station _ => .station

/-- Whether a mask and station bit name the scope of a counter (R153). -/
def CounterName.named (mask : BitVec 5) (station : Bool) : CounterName → Bool
  | .port p _ => mask.getLsbD p.toNat
  | .station _ => station

theorem CounterName.scope_mem_iff (mask : BitVec 5) (station : Bool) (c : CounterName) :
    c.scope ∈ scopesOf mask station ↔ c.named mask station = true := by
  cases c with
  | port p k => cases station <;> simp [CounterName.scope, CounterName.named, scopesOf, mem_portsOf]
  | station k => cases station <;> simp [CounterName.scope, CounterName.named, scopesOf]

theorem scopesOf_nodup (mask : BitVec 5) (station : Bool) : (scopesOf mask station).Nodup := by
  have hports : ((portsOf mask).map Scope.port).Nodup :=
    (portsOf_nodup mask).map (fun _ _ h => Scope.port.inj h)
  cases station
  · simpa [scopesOf] using hports
  · exact hports.append (List.nodup_singleton _) (by simp)

theorem Statistics.counter_setPort (n : Statistics) (p : Port) (v : Vector Counter 16) (q : Port) (k : PortCounter) :
    Statistics.counter { n with ports := n.ports.set p v } (.port q k)
      = if q = p then v.get k.index else n.counter (.port q k) := by
  by_cases h : q = p
  · subst h
    simp [Statistics.counter]
  · simp [Statistics.counter, PerPort.get_set_of_ne _ _ h, h]

/-- COUNTER_READ clears the wrap-since-read marks of the scope that it covers (R151). -/
theorem Statistics.readScope_counter (n : Statistics) (sc : Scope) (c : CounterName) :
    (n.readScope sc).counter c = if c.scope = sc then (n.counter c).readMark else n.counter c := by
  rcases sc with p | _ <;> rcases c with ⟨q, k⟩ | k
  · by_cases h : q = p
    · subst h
      simp [Statistics.readScope, Statistics.counter, CounterName.scope]
    · simp [Statistics.readScope, Statistics.counter_setPort, CounterName.scope, h]
  · rfl
  · rfl
  · simp [Statistics.readScope, Statistics.counter, CounterName.scope]

/-- CLEAR_COUNTERS zeroes the counters of a scope with both marks (R152). -/
theorem Statistics.clearScope_counter (n : Statistics) (sc : Scope) (c : CounterName) :
    (n.clearScope sc).counter c = if c.scope = sc then .zero else n.counter c := by
  rcases sc with p | _ <;> rcases c with ⟨q, k⟩ | k
  · by_cases h : q = p
    · subst h
      simp [Statistics.clearScope, Statistics.counter, CounterName.scope, Vector.get]
    · simp [Statistics.clearScope, Statistics.counter_setPort, CounterName.scope, h]
  · rfl
  · rfl
  · simp [Statistics.clearScope, Statistics.counter, CounterName.scope, Vector.get]

/-- The position of a counter in its scope (R148). -/
def CounterName.position : CounterName → Nat
  | .port _ k => k.index.val
  | .station k => k.index.val

/-- CLEAR_ROLLOVER acts on the counters of a scope whose positions are in its set (R153). -/
theorem Statistics.clearRollover_counter (n : Statistics) (sc : Scope) (set : Nat) (c : CounterName) :
    (n.clearRollover sc set).counter c
      = if c.scope = sc ∧ set.testBit c.position = true then (n.counter c).clearRollover else n.counter c := by
  rcases sc with p | _ <;> rcases c with ⟨q, k⟩ | k
  · by_cases h : q = p
    · subst h
      simp [Statistics.clearRollover, Statistics.counter, CounterName.scope, CounterName.position, Vector.get]
      rfl
    · simp [Statistics.clearRollover, Statistics.counter_setPort, CounterName.scope, h]
  · rfl
  · rfl
  · simp [Statistics.clearRollover, Statistics.counter, CounterName.scope, CounterName.position, Vector.get]
    rfl

/-- An act on scope after scope, each of which an act reaches for itself, reaches each counter once. -/
theorem counter_foldl_scopes {op : Statistics → Scope → Statistics} {f : Counter → Counter}
    (hop : ∀ n sc c, (op n sc).counter c = if c.scope = sc then f (n.counter c) else n.counter c) (c : CounterName) :
    ∀ (l : List Scope) (n : Statistics), l.Nodup →
      (l.foldl op n).counter c = if c.scope ∈ l then f (n.counter c) else n.counter c
  | [], n, _ => by simp
  | sc :: l, n, h => by
    obtain ⟨hsc, hl⟩ := List.nodup_cons.mp h
    rw [List.foldl_cons, counter_foldl_scopes hop c l _ hl, hop]
    by_cases hc : c.scope = sc
    · simp [hc, hsc]
    · simp [hc]

theorem readScopes_counter (n : Statistics) (mask : BitVec 5) (station : Bool) (c : CounterName) :
    ((scopesOf mask station).foldl Statistics.readScope n).counter c
      = if c.named mask station = true then (n.counter c).readMark else n.counter c := by
  rw [counter_foldl_scopes Statistics.readScope_counter c _ n (scopesOf_nodup mask station)]
  simp only [CounterName.scope_mem_iff]

theorem clearScopes_counter (n : Statistics) (mask : BitVec 5) (station : Bool) (c : CounterName) :
    ((scopesOf mask station).foldl Statistics.clearScope n).counter c
      = if c.named mask station = true then .zero else n.counter c := by
  rw [counter_foldl_scopes (f := fun _ => .zero) Statistics.clearScope_counter c _ n (scopesOf_nodup mask station)]
  simp only [CounterName.scope_mem_iff]

/-! ### The record of a scope -/

theorem rolloverBits_lt (l : List Counter) : rolloverBits l < 2 ^ l.length := by
  induction l with
  | nil => simp [rolloverBits]
  | cons c l ih =>
    rw [rolloverBits, List.length_cons, Nat.pow_succ]
    split <;> omega

theorem rolloverBits_testBit : ∀ {l : List Counter} {i : Nat} {c : Counter}, l[i]? = some c →
    (rolloverBits l).testBit i = c.rollover
  | [], _, _, h => by simp at h
  | x :: l, 0, c, h => by
    obtain rfl : x = c := by simpa using h
    rw [rolloverBits, Nat.testBit_zero]
    cases x.rollover <;> simp
  | x :: l, i + 1, c, h => by
    have hrest : ((if x.rollover = true then 1 else 0) + 2 * rolloverBits l) / 2 = rolloverBits l := by
      split <;> omega
    rw [rolloverBits, Nat.testBit_succ, hrest]
    exact rolloverBits_testBit (by simpa using h)

/-- A counter's value and its flag stand at their places in the record of its scope (R180). -/
theorem scopeBytes_fields (n : Statistics) (sc : Scope) {i w : Nat} {c : Counter}
    (hlen : (n.scopeCounters sc).length = 8 * w) (h : (n.scopeCounters sc)[i]? = some c) :
    (n.scopeBytes sc).length = 33 * w
      ∧ bytesAt (n.scopeBytes sc) (4 * i) 4 = c.value.toNat
      ∧ (bytesAt (n.scopeBytes sc) (32 * w) w).testBit i = c.rollover := by
  have hw (c : Counter) : (beBytes 4 c.value.toNat).length = 4 := by simp
  have hi : i < 8 * w := hlen ▸ (List.getElem?_eq_some_iff.mp h).1
  have hvalues : ((n.scopeCounters sc).map (fun c => beBytes 4 c.value.toNat)).flatten.length = 32 * w := by
    rw [length_flatten_map hw, hlen]
    omega
  have hbytes : n.scopeBytes sc = ((n.scopeCounters sc).map (fun c => beBytes 4 c.value.toNat)).flatten
      ++ beBytes w (rolloverBits (n.scopeCounters sc)) := by
    rw [Statistics.scopeBytes, hlen, Nat.mul_div_cancel_left w (by norm_num)]
  rw [hbytes]
  refine ⟨?_, ?_, ?_⟩
  · rw [List.length_append, hvalues, length_beBytes]
    omega
  · rw [bytesAt_append_left _ (by rw [hvalues]; omega), ← Nat.add_zero (4 * i), bytesAt_flatten_map hw h (by omega),
      bytesAt_self (hw c), ofBytes_beBytes_toNat _ rfl]
  · rw [bytesAt_append_right _ _ (by rw [hvalues]), hvalues, Nat.sub_self, bytesAt_self (by simp),
      ofBytes_beBytes_of_lt, rolloverBits_testBit h]
    have := rolloverBits_lt (n.scopeCounters sc)
    rwa [hlen, Nat.pow_mul] at this

theorem scopeCounters_station (n : Statistics) (k : StationCounter) :
    (n.scopeCounters .station).length = 8 * 1
      ∧ (n.scopeCounters .station)[k.index.val]? = some (n.counter (.station k)) := by
  simp [Statistics.scopeCounters, Statistics.counter, Vector.get]

theorem scopeCounters_port (n : Statistics) (p : Port) (k : PortCounter) :
    (n.scopeCounters (.port p)).length = 8 * 2
      ∧ (n.scopeCounters (.port p))[k.index.val]? = some (n.counter (.port p k)) := by
  simp [Statistics.scopeCounters, Statistics.counter, Vector.get]

theorem length_scopeBytes_station (n : Statistics) : (n.scopeBytes .station).length = 33 :=
  (scopeBytes_fields n .station (scopeCounters_station n .ingressOk).1 (scopeCounters_station n .ingressOk).2).1

theorem length_scopeBytes_port (n : Statistics) (p : Port) : (n.scopeBytes (.port p)).length = 66 :=
  (scopeBytes_fields n (.port p) (scopeCounters_port n p .rxGood).1 (scopeCounters_port n p .rxGood).2).1

theorem State.counterTable_scopesOf (s : State) (mask : BitVec 5) (station : Bool) :
    s.counterTable (scopesOf mask station)
      = ((portsOf mask).map (fun p => s.snu.scopeBytes (.port p))).flatten
        ++ (if station = true then s.snu.scopeBytes .station else []) := by
  rw [State.counterTable, scopesOf, List.map_append, List.flatten_append, List.map_map]
  cases station <;> simp [Function.comp_def]

theorem State.length_counterTable (s : State) (mask : BitVec 5) (station : Bool) :
    (s.counterTable (scopesOf mask station)).length = 66 * (portsOf mask).length + (if station = true then 33 else 0) := by
  rw [State.counterTable_scopesOf, List.length_append, length_flatten_map (length_scopeBytes_port s.snu)]
  cases station <;> simp [length_scopeBytes_station]

/-! ### The reads -/

/-- A read latches its record and shifts it out (R163). -/
theorem State.read_eq (s : State) (data : List Byte) (n : Nat) :
    s.read data n = { s with slc := { s.slc with snapshot := data, dataOut := shifted data n } } := by
  rw [State.read, shiftOut_eq_shifted]

theorem foldl_readScope_notices (l : List Scope) (n : Statistics) :
    (l.foldl Statistics.readScope n).notices = n.notices := by
  induction l generalizing n with
  | nil => rfl
  | cons sc l ih => rw [List.foldl_cons, ih]; cases sc <;> rfl

/-- Settles O49: each table by its records, and each read by its latch. -/
theorem readsLatchAndShiftOutTheirData : Obligations.ReadsLatchAndShiftOutTheirData := by
  refine ⟨fun s mask => ⟨?_, ?_, fun i p h => ⟨linkFields_linkTable s mask h, raceFields_raceTable s mask h⟩, ?_,
      fun h => ?_, fun i e h => costFields_costTable s h, ?_, fun h => ?_, fun i e h => ringFields_ringTable s h,
      s.length_seenTable, slotFields_own s, fun i => ⟨fun t h => slotFields_seenTable s h, free_slot_seenTable s⟩⟩,
    fun s mask station k => ⟨s.counterTable_scopesOf mask station, ?_⟩,
    fun dev mask station n s ha => ⟨⟨?_, ?_, ?_, ?_, ?_, ?_, ?_, ?_⟩, s.length_counterTable mask station,
      fun p k => ?_⟩⟩
  · exact length_flatten_map (fun p => length_linkBytes s.draws s.image p (s.link p)) _
  · exact length_flatten_map s.length_raceBytes _
  · rw [State.costTable, List.length_cons, length_flatten_map CostEntry.length_bytes, Nat.add_comm]
  · rw [State.costTable, bytesAt_cons_zero, byteOf_toNat h]
  · rw [State.ringTable, List.length_cons, length_flatten_map RingEntry.length_bytes, Nat.add_comm]
  · rw [State.ringTable, bytesAt_cons_zero, byteOf_toNat h]
  · obtain ⟨hlen, hk⟩ := scopeCounters_station s.snu k
    exact (scopeBytes_fields s.snu .station hlen hk).2
  · exact congrArg Host.Outcome.next
      ((State.transfer_of_addressed ha _).trans (congrArg State.drew (s.read_eq (s.linkTable mask) n)))
  · exact congrArg Host.Outcome.next ((State.transfer_of_addressed ha _).trans (s.read_eq s.costTable n))
  · exact congrArg Host.Outcome.next
      ((State.transfer_of_addressed ha _).trans (congrArg State.drew (s.read_eq s.seenTable n)))
  · exact congrArg Host.Outcome.next ((State.transfer_of_addressed ha _).trans (s.read_eq s.ringTable n))
  · exact congrArg Host.Outcome.next ((State.transfer_of_addressed ha _).trans (s.read_eq (s.raceTable mask) n))
  · exact congrArg Host.Outcome.next ((State.transfer_of_addressed ha _).trans (s.read_eq s.image.bytes n))
  · exact congrArg Host.Outcome.next ((State.transfer_of_addressed ha _).trans
      (congrArg (fun t : State => t.setResult tableReadName .unknown none) (s.read_eq [] n)))
  · refine ⟨_, congrArg Host.Outcome.next (State.transfer_of_addressed ha _), ?_, fun c => ?_⟩
    · rw [State.read_eq, ← foldl_readScope_notices (scopesOf mask station) s.snu]
    · refine (readScopes_counter s.snu mask station c).trans ?_
      cases c <;> rfl
  · obtain ⟨hlen, hk⟩ := scopeCounters_port s.snu p k
    obtain ⟨hbytes, hvalue, hflag⟩ := scopeBytes_fields s.snu (.port p) hlen hk
    refine ⟨hvalue, ?_⟩
    rw [bytesAt, List.take_of_length_le (by rw [List.length_drop, hbytes])] at hflag
    exact hflag

/-! ### CLEAR_COUNTERS -/

/-- What CLEAR_COUNTERS does to the fade time remainder and the race statistics of the ports that its scopes name. -/
theorem State.clearScope_eq (s : State) (sc : Scope) :
    ∃ lm race, s.clearScope sc = { s with lm := lm, af := { s.af with race := race }, snu := s.snu.clearScope sc }
      ∧ (∀ p, lm.get p = if sc = .port p then (s.link p).clearFadeTime else s.link p)
      ∧ ∀ p, race.get p = if sc = .port p then ⟨0, 0, 0⟩ else s.af.race.get p := by
  rcases sc with q | _
  · refine ⟨s.lm.set q (s.link q).clearFadeTime, s.af.race.set q ⟨0, 0, 0⟩, rfl, fun p => ?_, fun p => ?_⟩
    · by_cases h : p = q
      · subst h
        simp
      · rw [PerPort.get_set_of_ne _ _ h, if_neg (fun e => h (Scope.port.inj e).symm)]
        rfl
    · by_cases h : p = q
      · subst h
        simp
      · rw [PerPort.get_set_of_ne _ _ h, if_neg (fun e => h (Scope.port.inj e).symm)]
  · exact ⟨s.lm, s.af.race, rfl, fun p => rfl, fun p => rfl⟩

theorem State.clearScopes_eq : ∀ (l : List Scope) (s : State), l.Nodup →
    ∃ lm race, l.foldl State.clearScope s
        = { s with lm := lm, af := { s.af with race := race }, snu := l.foldl Statistics.clearScope s.snu }
      ∧ (∀ p, lm.get p = if .port p ∈ l then (s.link p).clearFadeTime else s.link p)
      ∧ ∀ p, race.get p = if .port p ∈ l then ⟨0, 0, 0⟩ else s.af.race.get p
  | [], s, _ => ⟨s.lm, s.af.race, rfl, fun p => rfl, fun p => rfl⟩
  | sc :: l, s, h => by
    obtain ⟨hsc, hl⟩ := List.nodup_cons.mp h
    obtain ⟨lm, race, hs, hlm, hrace⟩ := s.clearScope_eq sc
    obtain ⟨lm', race', hs', hlm', hrace'⟩ := State.clearScopes_eq l (s.clearScope sc) hl
    refine ⟨lm', race', ?_, fun p => ?_, fun p => ?_⟩
    · rw [List.foldl_cons, hs', hs]
      rfl
    · have hlink : (s.clearScope sc).link p = if sc = .port p then (s.link p).clearFadeTime else s.link p := by
        rw [hs]
        exact hlm p
      rw [hlm', hlink]
      by_cases hp : Scope.port p = sc
      · subst hp
        simp [hsc]
      · simp [hp, Ne.symm hp]
    · have hstats : (s.clearScope sc).af.race.get p = if sc = .port p then ⟨0, 0, 0⟩ else s.af.race.get p := by
        rw [hs]
        exact hrace p
      rw [hrace', hstats]
      by_cases hp : Scope.port p = sc
      · subst hp
        simp
      · simp [hp, Ne.symm hp]

theorem foldl_clearScope_notices (l : List Scope) (n : Statistics) :
    (l.foldl Statistics.clearScope n).notices = n.notices := by
  induction l generalizing n with
  | nil => rfl
  | cons sc l ih => rw [List.foldl_cons, ih]; cases sc <;> rfl

/-- The fade time remainder after a clear: 0, but for a microsecond that waits to be counted (R152, log 17). -/
theorem LinkRecord.clearFadeTime_of_part {r : LinkRecord} (h : r.fadeRemainder < 1000) :
    r.clearFadeTime.fadeRemainder = 0 := by
  have : r.fadeRemainder % fadeUnit = r.fadeRemainder := Nat.mod_eq_of_lt h
  rw [LinkRecord.clearFadeTime, this, Nat.sub_self]

theorem LinkRecord.clearFadeTime_of_whole {r : LinkRecord} (h : r.fadeRemainder = 1000) :
    r.clearFadeTime.fadeRemainder = 1000 := by
  rw [LinkRecord.clearFadeTime, h]
  rfl

/-- A microsecond that waits is counted, from a counter at 0 (R81). -/
theorem fadeTimeAccrual_of_cleared {t : State} {p : Port} (hr : (t.link p).fadeRemainder = 1000)
    (hc : t.snu.counter (.port p .fadeTimeUs) = .zero) :
    ∃ u, exec (.fadeTimeAccrual p) t = .next u ∧ (u.link p).fadeRemainder = 0
      ∧ u.snu.counter (.port p .fadeTimeUs) = ⟨1, false, false⟩ := by
  refine ⟨_, congrArg Host.Outcome.next (if_pos (le_of_eq hr.symm)), ?_, ?_⟩
  · rw [State.count_link, State.setLink_link_self, hr]
    rfl
  · rw [State.count_snu, Statistics.counter_count, if_pos rfl, State.setLink_snu, hc]
    rfl

theorem port_mem_scopesOf (mask : BitVec 5) (station : Bool) (p : Port) :
    Scope.port p ∈ scopesOf mask station ↔ mask.getLsbD p.toNat = true :=
  CounterName.scope_mem_iff mask station (.port p .rxGood)

/-! ### CLEAR_ROLLOVER -/

/-- The sets of the ports named, two bytes each (R153). -/
def portSets : List Port → List Byte → List (Scope × Nat)
  | [], _ => []
  | p :: ps, sets => (.port p, ofBytes (sets.take 2)) :: portSets ps (sets.drop 2)

theorem map_fst_portSets (ps : List Port) (sets : List Byte) : (portSets ps sets).map Prod.fst = ps.map .port := by
  induction ps generalizing sets with
  | nil => rfl
  | cons p ps ih => rw [portSets, List.map_cons, ih, List.map_cons]

theorem mem_portSets : ∀ {ps : List Port} {sets : List Byte} {i : Nat} {p : Port}, ps[i]? = some p →
    (Scope.port p, ofBytes ((sets.drop (2 * i)).take 2)) ∈ portSets ps sets
  | [], _, _, _, h => by simp at h
  | q :: ps, sets, 0, p, h => by
    obtain rfl : q = p := by simpa using h
    exact List.mem_cons_self
  | q :: ps, sets, i + 1, p, h => by
    have hrest := mem_portSets (ps := ps) (sets := sets.drop 2) (i := i) (p := p) (by simpa using h)
    rw [List.drop_drop, Nat.add_comm, ← Nat.mul_succ] at hrest
    exact List.mem_cons_of_mem _ hrest

/-- The port sets are read in order where they all came, and none where one is missing. -/
theorem rolloverSets?_ports (tail : List Scope) : ∀ (ps : List Port) (sets : List Byte),
    rolloverSets? (ps.map .port ++ tail) sets
      = if sets.length < 2 * ps.length then none
        else (rolloverSets? tail (sets.drop (2 * ps.length))).map (portSets ps sets ++ ·)
  | [], sets => by simp [portSets]
  | p :: ps, [] => by simp [rolloverSets?]
  | p :: ps, [a] => by simp [rolloverSets?]; omega
  | p :: ps, a :: b :: sets => by
    rw [List.map_cons, List.cons_append, rolloverSets?, rolloverSets?_ports tail ps sets]
    by_cases h : sets.length < 2 * ps.length
    · rw [if_pos h, if_pos (by simp; omega)]
      rfl
    · rw [if_neg h, if_neg (by simp; omega)]
      simp [portSets, Nat.mul_succ, Function.comp_def]

/-- The sets of a CLEAR_ROLLOVER: those of the ports, then the station's (R153, R179). -/
theorem rolloverSets?_scopesOf (mask : BitVec 5) (station : Bool) (sets : List Byte) :
    rolloverSets? (scopesOf mask station) sets
      = if sets.length < 2 * (portsOf mask).length + (if station = true then 1 else 0) then none
        else some (portSets (portsOf mask) sets
          ++ (if station = true then [(.station, (sets.getD (2 * (portsOf mask).length) 0).toNat)] else [])) := by
  rw [scopesOf, rolloverSets?_ports]
  cases station
  · simp [rolloverSets?]
  · by_cases h : sets.length < 2 * (portsOf mask).length
    · rw [if_pos h, if_pos (by simp; omega)]
    · rw [if_neg h]
      cases hd : sets.drop (2 * (portsOf mask).length) with
      | nil =>
        have := List.drop_eq_nil_iff.mp hd
        have hshort : sets.length < 2 * (portsOf mask).length + (if true = true then 1 else 0) := by
          rw [if_pos rfl]
          omega
        rw [if_pos hshort]
        rfl
      | cons a rest =>
        have ha : sets[2 * (portsOf mask).length]? = some a := by
          rw [← Nat.add_zero (2 * _), ← List.getElem?_drop, hd]
          rfl
        have := (List.getElem?_eq_some_iff.mp ha).1
        have hlong : ¬ sets.length < 2 * (portsOf mask).length + (if true = true then 1 else 0) := by
          rw [if_pos rfl]
          omega
        rw [if_neg hlong]
        simp [rolloverSets?, List.getD_eq_getElem?_getD, ha]

/-- The counter sets of a CLEAR_ROLLOVER name each scope once: a counter is reached by the set of its own scope. -/
theorem clearRollovers_counter (c : CounterName) : ∀ (l : List (Scope × Nat)) (n : Statistics), (l.map Prod.fst).Nodup →
    (c.scope ∉ l.map Prod.fst → (n.clearRollovers l).counter c = n.counter c)
    ∧ ∀ set, (c.scope, set) ∈ l → (n.clearRollovers l).counter c
        = if set.testBit c.position = true then (n.counter c).clearRollover else n.counter c
  | [], n, _ => ⟨fun _ => rfl, fun set h => by simp at h⟩
  | (sc, set) :: l, n, h => by
    obtain ⟨hsc, hl⟩ := List.nodup_cons.mp h
    obtain ⟨hout, hin⟩ := clearRollovers_counter c l (n.clearRollover sc set) hl
    have hstep : n.clearRollovers ((sc, set) :: l) = (n.clearRollover sc set).clearRollovers l := rfl
    refine ⟨fun hc => ?_, fun set' hc => ?_⟩
    · rw [List.map_cons, List.mem_cons, not_or] at hc
      rw [hstep, hout hc.2, Statistics.clearRollover_counter, if_neg (fun h => hc.1 h.1)]
    · rcases List.mem_cons.mp hc with heq | hc
      · obtain ⟨rfl, rfl⟩ : c.scope = sc ∧ set' = set := by simpa using heq
        rw [hstep, hout hsc, Statistics.clearRollover_counter]
        simp
      · have hne : c.scope ≠ sc := fun e => hsc (List.mem_map.mpr ⟨_, hc, e⟩)
        have hsame : (n.clearRollover sc set).counter c = n.counter c := by
          rw [Statistics.clearRollover_counter, if_neg (fun h => hne h.1)]
        rw [hstep, hin set' hc, hsame]

theorem foldl_clearRollover_notices (l : List (Scope × Nat)) (n : Statistics) :
    (n.clearRollovers l).notices = n.notices := by
  induction l generalizing n with
  | nil => rfl
  | cons x l ih =>
    obtain ⟨sc, set⟩ := x
    exact (ih (n.clearRollover sc set)).trans (by cases sc <;> rfl)

/-- CLEAR_ROLLOVER clears a flag named unless the counter has wrapped since it was read (R153). -/
theorem clearRollover_eq (x : Counter) (b : Bool) :
    (if b = true then x.clearRollover else x)
      = if b = true ∧ x.wrapSinceRead = false then { x with rollover := false } else x := by
  obtain ⟨v, r, w⟩ := x
  cases b <;> cases w <;> simp [Counter.clearRollover]

/-- Settles O46: the scopes named are cleared one after the other, each reaching its own counters alone. -/
theorem clearCommandsReachTheirScopes : Obligations.ClearCommandsReachTheirScopes := by
  intro dev mask station s ha
  refine ⟨fun hc => ⟨?_, fun l => ?_⟩, fun hs => ⟨?_, fun sets => ⟨fun hshort => ?_, fun hlong => ?_⟩⟩⟩
  · exact congrArg Host.Outcome.next ((State.transfer_of_addressed ha _).trans (serviceCommand_of_config hc _ _))
  · exact congrArg Host.Outcome.next ((State.transfer_of_addressed ha _).trans (serviceCommand_of_config hc _ _))
  · obtain ⟨lm, race, heq, hlm, hrace⟩ := State.clearScopes_eq (scopesOf mask station) s (scopesOf_nodup mask station)
    have hcounter := clearScopes_counter s.snu mask station
    have hnotices := foldl_clearScope_notices (scopesOf mask station) s.snu
    refine ⟨_, congrArg Host.Outcome.next ((State.transfer_of_addressed ha _).trans
      ((serviceCommand_of_service hs _ _).trans (congrArg (State.accept · codeClearCounters) heq))), ?_, fun c => ?_,
      fun p => ⟨fun hp => ⟨?_, ?_, fun hpart => ?_, fun hwhole => ?_⟩, fun hp => ⟨?_, ?_⟩⟩⟩
    · rw [← hnotices]
      rfl
    · refine (hcounter c).trans ?_
      cases c <;> rfl
    · have hl := (hlm p).trans (if_pos ((port_mem_scopesOf mask station p).mpr hp))
      show lm.get p = { s.link p with fadeRemainder := (lm.get p).fadeRemainder }
      rw [hl]
      rfl
    · exact (hrace p).trans (if_pos ((port_mem_scopesOf mask station p).mpr hp))
    · have hl := (hlm p).trans (if_pos ((port_mem_scopesOf mask station p).mpr hp))
      exact (congrArg LinkRecord.fadeRemainder hl).trans (LinkRecord.clearFadeTime_of_part hpart)
    · have hl := (hlm p).trans (if_pos ((port_mem_scopesOf mask station p).mpr hp))
      exact fadeTimeAccrual_of_cleared
        ((congrArg LinkRecord.fadeRemainder hl).trans (LinkRecord.clearFadeTime_of_whole hwhole))
        ((hcounter (.port p .fadeTimeUs)).trans (if_pos hp))
    · exact (hlm p).trans (if_neg (by rw [port_mem_scopesOf, hp]; decide))
    · exact (hrace p).trans (if_neg (by rw [port_mem_scopesOf, hp]; decide))
  · have hnone : rolloverSets? (scopesOf mask station) sets = none := by
      rw [rolloverSets?_scopesOf, if_pos hshort]
    refine congrArg Host.Outcome.next ((State.transfer_of_addressed ha _).trans
      ((serviceCommand_of_service hs _ _).trans ?_))
    rw [hnone]
    rfl
  · have hsets := (rolloverSets?_scopesOf mask station sets).trans (if_neg (Nat.not_lt.mpr hlong))
    have hfst : (portSets (portsOf mask) sets ++ (if station = true then
        [(Scope.station, (sets.getD (2 * (portsOf mask).length) 0).toNat)] else [])).map Prod.fst
          = scopesOf mask station := by
      rw [List.map_append, map_fst_portSets, scopesOf]
      cases station <;> rfl
    generalize hl : portSets (portsOf mask) sets ++ _ = l at hsets hfst
    have hcounter (c : CounterName) := clearRollovers_counter c l s.snu (hfst ▸ scopesOf_nodup mask station)
    refine ⟨{ s with snu := s.snu.clearRollovers l }.accept codeClearRollover,
      congrArg Host.Outcome.next ((State.transfer_of_addressed ha _).trans
        ((serviceCommand_of_service hs _ _).trans ?_)), ?_, fun c hc => ?_, fun i p k hp => ?_, fun hstation k => ?_⟩
    · rw [hsets]
    · rw [← foldl_clearRollover_notices l s.snu]
      rfl
    · refine (hcounter c).1 ?_
      rw [hfst, CounterName.scope_mem_iff]
      cases c <;> simpa [CounterName.named] using hc
    · refine ((hcounter (.port p k)).2 _ (hl ▸ List.mem_append_left _ (mem_portSets hp))).trans ?_
      exact clearRollover_eq _ _
    · subst hstation
      refine ((hcounter (.station k)).2 _ (hl ▸ List.mem_append_right _ List.mem_cons_self)).trans ?_
      exact clearRollover_eq _ _

end Sys2Proof.Machine


/-! The configuration image (chapter 10, sections 10.3 and 10.5; chapter 11, section 11.3.2): the item records of a
CONFIG_WRITE, and each item's place in the image that TABLE_READ returns. -/

namespace Sys2Proof.Machine

/-! ### Item records -/

/-- Whole records read before what the rest of a body gives. -/
def ItemRecords.after (l : List (Nat × List Byte)) : ItemRecords → ItemRecords
  | .records items => .records (l ++ items)
  | .badItem => .badItem
  | .cutShort => .cutShort

/-- The bytes of item records: each an item number and its value (R179). -/
def recordBytes (l : List (Nat × List Byte)) : List Byte := (l.map (fun x => BitVec.ofNat 8 x.1 :: x.2)).flatten

/-- Item records with known numbers and whole values. -/
abbrev wholeRecords (l : List (Nat × List Byte)) : Prop := ∀ x ∈ l, 1 ≤ x.1 ∧ x.1 ≤ 35 ∧ x.2.length = itemWidth x.1

theorem itemWidth_pos {i : Nat} (h1 : 1 ≤ i) (h35 : i ≤ 35) : 0 < itemWidth i := by
  unfold itemWidth
  split_ifs <;> omega

theorem itemWidth_of_unknown {i : Nat} (h : i = 0 ∨ 35 < i) : itemWidth i = 0 := if_pos h

/-- Whole records are read one by one, whatever follows them. -/
theorem readItemRecords_recordBytes : ∀ {l : List (Nat × List Byte)}, wholeRecords l → ∀ (fuel : Nat) (rest : List Byte),
    readItemRecords (fuel + l.length) (recordBytes l ++ rest) = (readItemRecords fuel rest).after l
  | [], _, fuel, rest => by
    cases h : readItemRecords fuel rest <;> simp [recordBytes, ItemRecords.after, h]
  | (i, v) :: l, h, fuel, rest => by
    obtain ⟨h1, h35, hv⟩ : 1 ≤ i ∧ i ≤ 35 ∧ v.length = itemWidth i := h (i, v) List.mem_cons_self
    have ih := readItemRecords_recordBytes (fun x hx => h x (List.mem_cons_of_mem _ hx)) fuel rest
    have hi : (BitVec.ofNat 8 i).toNat = i := by rw [BitVec.toNat_ofNat]; omega
    have hw := itemWidth_pos h1 h35
    have hbytes : recordBytes ((i, v) :: l) ++ rest = BitVec.ofNat 8 i :: (v ++ (recordBytes l ++ rest)) := by
      simp [recordBytes]
    rw [hbytes, List.length_cons, ← Nat.add_assoc, readItemRecords, hi, if_neg (by omega), if_neg (by simp [hv]), ← hv,
      List.drop_left, List.take_left, ih]
    cases readItemRecords fuel rest <;> rfl

/-- The body of a CONFIG_WRITE that whole records begin is read with at least the fuel that the rest needs. -/
theorem itemRecords_recordBytes {l : List (Nat × List Byte)} (hl : wholeRecords l) (rest : List Byte) :
    ∃ fuel, rest.length ≤ fuel ∧ itemRecords (recordBytes l ++ rest) = (readItemRecords fuel rest).after l := by
  have hlen : l.length ≤ (recordBytes l).length := by
    clear hl
    induction l with
    | nil => simp
    | cons x l ih => simp [recordBytes] at ih ⊢; omega
  refine ⟨(recordBytes l ++ rest).length - l.length, by simp; omega, ?_⟩
  rw [← readItemRecords_recordBytes hl, Nat.sub_add_cancel (by simp; omega), itemRecords]

theorem itemRecords_of_whole {l : List (Nat × List Byte)} (hl : wholeRecords l) :
    itemRecords (recordBytes l) = .records l := by
  obtain ⟨fuel, -, h⟩ := itemRecords_recordBytes hl []
  rw [List.append_nil] at h
  rw [h]
  cases fuel <;> simp [readItemRecords, ItemRecords.after]

theorem itemRecords_of_bad {l : List (Nat × List Byte)} (hl : wholeRecords l) {i : Byte} (hi : i = 0 ∨ 35 < i.toNat)
    (rest : List Byte) : itemRecords (recordBytes l ++ i :: rest) = .badItem := by
  obtain ⟨fuel, hfuel, h⟩ := itemRecords_recordBytes hl (i :: rest)
  obtain ⟨fuel, rfl⟩ : ∃ n, fuel = n + 1 := ⟨fuel - 1, by simp at hfuel; omega⟩
  have hw : itemWidth i.toNat = 0 := itemWidth_of_unknown (hi.imp_left (by rintro rfl; rfl))
  rw [h, readItemRecords, if_pos hw]
  rfl

theorem itemRecords_of_cut {l : List (Nat × List Byte)} (hl : wholeRecords l) {i : Byte} (h1 : 1 ≤ i.toNat)
    (h35 : i.toNat ≤ 35) {rest : List Byte} (hrest : rest.length < itemWidth i.toNat) :
    itemRecords (recordBytes l ++ i :: rest) = .cutShort := by
  obtain ⟨fuel, hfuel, h⟩ := itemRecords_recordBytes hl (i :: rest)
  obtain ⟨fuel, rfl⟩ : ∃ n, fuel = n + 1 := ⟨fuel - 1, by simp at hfuel; omega⟩
  have hw := itemWidth_pos h1 h35
  rw [h, readItemRecords, if_neg (by omega), if_pos hrest]
  rfl

theorem execConfigWrite_of_addressed {s : State} {dev : BitVec 2} (ha : s.addressed dev) (body : List Byte) :
    exec (.configWrite dev body) s = .next (s.configWrite body) :=
  congrArg Host.Outcome.next (State.transfer_of_addressed ha _)

theorem State.configWrite_of_records {s : State} {body : List Byte} {l : List (Nat × List Byte)}
    (h : itemRecords body = .records l) :
    s.configWrite body = if s.inService then s.setResult ⟨1, 0⟩ .refusedState none
      else { s with slc := { s.slc with image := s.image.writeAll l } }.setResult ⟨1, 0⟩ .accepted none := by
  rw [State.configWrite, h]
  rfl

theorem State.configWrite_of_badItem {s : State} {body : List Byte} (h : itemRecords body = .badItem) :
    s.configWrite body
      = s.setResult ⟨1, 0⟩ (if s.inService then .refusedState else .refusedOperand) none := by
  rw [State.configWrite, h]
  rfl

theorem State.configWrite_of_cutShort {s : State} {body : List Byte} (h : itemRecords body = .cutShort) :
    s.configWrite body = s := by
  rw [State.configWrite, h]

/-- Settles O47, by what the body's records are read as. -/
theorem configWriteStoresWholeRecords : Obligations.ConfigWriteStoresWholeRecords := by
  intro dev s l ha hl
  refine ⟨fun hc => ?_, fun hs => ?_, fun i rest => ⟨fun hi => ⟨fun hc => ?_, fun hs => ?_⟩, fun h1 h35 hrest => ?_⟩⟩
  · rw [execConfigWrite_of_addressed ha]
    exact congrArg Host.Outcome.next ((State.configWrite_of_records (itemRecords_of_whole hl)).trans
      (if_neg (Bool.eq_false_iff.mp hc)))
  · rw [execConfigWrite_of_addressed ha]
    exact congrArg Host.Outcome.next ((State.configWrite_of_records (itemRecords_of_whole hl)).trans (if_pos hs))
  · rw [execConfigWrite_of_addressed ha]
    refine congrArg Host.Outcome.next ((State.configWrite_of_badItem (itemRecords_of_bad hl hi rest)).trans ?_)
    rw [hc]
    rfl
  · rw [execConfigWrite_of_addressed ha]
    refine congrArg Host.Outcome.next ((State.configWrite_of_badItem (itemRecords_of_bad hl hi rest)).trans ?_)
    rw [hs]
    rfl
  · rw [execConfigWrite_of_addressed ha]
    exact congrArg Host.Outcome.next (State.configWrite_of_cutShort (itemRecords_of_cut hl h1 h35 hrest))

/-! ### The image's bytes -/

theorem beBytes_ofBytes (l : List Byte) : beBytes l.length (ofBytes l) = l := by
  induction l using List.reverseRecOn with
  | nil => rfl
  | append_singleton l b ih =>
    have hb := b.isLt
    rw [List.length_append, List.length_singleton, ofBytes_concat, beBytes,
      show (ofBytes l * 256 + b.toNat) / 256 = ofBytes l by omega, ih]
    congr 2
    apply BitVec.eq_of_toNat_eq
    rw [BitVec.toNat_ofNat]
    omega

/-- A value of an item's width is stored whole: its bytes are those of the word that holds it. -/
theorem beBytes_word {w n : Nat} {v : List Byte} (hn : v.length = n) (hw : w = 8 * n) :
    beBytes n (BitVec.ofNat w (ofBytes v)).toNat = v := by
  subst hn
  have hlt : ofBytes v < 2 ^ w := by
    rw [hw, Nat.pow_mul]
    exact ofBytes_lt v
  rw [BitVec.toNat_ofNat, Nat.mod_eq_of_lt hlt, beBytes_ofBytes]

/-- The values of the items as bytes, in ascending item number (R181). -/
def Image.fields (g : Image) : List (List Byte) :=
  [[g.stationNumber], [g.role], [g.startNumber], [g.crossFeed], [g.portEnable], [g.floodMask], [g.fibreFlood],
    beBytes 2 g.fibreRate.toNat]
  ++ g.profiles.toList.map Profile.bytes
  ++ [beBytes 2 g.hailInterval.toNat, [g.lossCount], beBytes 4 g.delayJump.toNat, [g.marginShift], [g.fade],
    [g.hysteresis], [g.degrade], beBytes 2 g.holdBase.toNat, beBytes 2 g.holdMax.toNat, beBytes 2 g.trialWindow.toNat,
    beBytes 2 g.refLen.toNat, beBytes 4 g.degradePenalty.toNat, [g.pairClass], beBytes 4 g.pairWindow.toNat,
    beBytes 2 g.ageLimit.toNat, [g.initBudget], beBytes 2 g.originIdle.toNat, [g.noticeEnable], [g.noticeOrder]]

theorem Image.flatten_fields (g : Image) : g.fields.flatten = g.bytes := by
  simp [Image.fields, Image.bytes]

theorem Profile.length_bytes (f : Profile) : f.bytes.length = 4 := by
  simp [Profile.bytes]

/-- Each item has the width that R181 gives it. -/
theorem Image.map_length_fields (g : Image) : g.fields.map List.length = (List.range' 1 35).map itemWidth := by
  have hprofiles : (g.profiles.toList.map Profile.bytes).map List.length = List.replicate 8 4 := by
    rw [List.map_map, List.eq_replicate_iff]
    simp [Profile.length_bytes]
  simp only [Image.fields, List.map_append, hprofiles, List.map_cons, List.map_nil, List.length_cons, List.length_nil,
    length_beBytes]
  decide

/-- The items by their widths (R181), the profiles apart. -/
theorem item_cases {i : Nat} (h1 : 1 ≤ i) (h35 : i ≤ 35) :
    (i ∈ [1, 2, 3, 4, 5, 6, 7, 18, 20, 21, 22, 23, 29, 32, 34, 35] ∧ itemWidth i = 1)
    ∨ (i ∈ [8, 17, 24, 25, 26, 27, 31, 33] ∧ itemWidth i = 2)
    ∨ (i ∈ [19, 28, 30] ∧ itemWidth i = 4) ∨ (∃ n : Fin 8, i = 9 + n.val) ∧ itemWidth i = 4 := by
  interval_cases i <;> decide

theorem Image.fields_write_byte (g : Image) {i : Nat} (a : Byte)
    (h : i ∈ [1, 2, 3, 4, 5, 6, 7, 18, 20, 21, 22, 23, 29, 32, 34, 35]) :
    (g.write i [a]).fields = g.fields.set (i - 1) [a] := by
  fin_cases h <;> simp [Image.write, Image.fields]

theorem Image.fields_write_pair (g : Image) {i : Nat} {v : List Byte} (hv : v.length = 2)
    (h : i ∈ [8, 17, 24, 25, 26, 27, 31, 33]) : (g.write i v).fields = g.fields.set (i - 1) v := by
  fin_cases h <;> simp [Image.write, Image.fields, beBytes_word hv, -BitVec.toNat_ofNat]

theorem Image.fields_write_quad (g : Image) {i : Nat} {v : List Byte} (hv : v.length = 4)
    (h : i ∈ [19, 28, 30]) : (g.write i v).fields = g.fields.set (i - 1) v := by
  fin_cases h <;> simp [Image.write, Image.fields, beBytes_word hv, -BitVec.toNat_ofNat]

/-- The profile whose four bytes these are (R181). -/
def profileOf (v : List Byte) : Profile :=
  ⟨BitVec.ofNat 16 (ofBytes (v.take 2)), BitVec.ofNat 16 (ofBytes (v.drop 2))⟩

theorem Image.write_profile (g : Image) (n : Fin 8) (v : List Byte) :
    g.write (9 + n.val) v = { g with profiles := g.profiles.set n.val (profileOf v) } := by
  rw [← Vector.setIfInBounds_eq_set]
  fin_cases n <;> rfl

theorem Image.fields_write_profile (g : Image) (n : Fin 8) {v : List Byte} (hv : v.length = 4) :
    (g.write (9 + n.val) v).fields = g.fields.set (9 + n.val - 1) v := by
  have hbytes : (profileOf v).bytes = v := by
    rw [Profile.bytes, profileOf, beBytes_word (by simp [hv]) rfl, beBytes_word (by simp [hv]) rfl,
      List.take_append_drop]
  have hset : (g.profiles.set n.val (profileOf v)).toList.map Profile.bytes
      = (g.profiles.toList.map Profile.bytes).set n.val v := by
    rw [Vector.toList_set, List.map_set, hbytes]
  have hn : 9 + n.val - 1 = 8 + n.val := by omega
  rw [Image.write_profile, hn]
  simp only [Image.fields, hset]
  rw [List.append_assoc, List.append_assoc, List.set_append_right _ _ (by simp),
    List.set_append_left _ _ (by simp)]
  simp

/-- Writing an item replaces its own value and no other (R168). -/
theorem Image.fields_write (g : Image) {i : Nat} {v : List Byte} (h1 : 1 ≤ i) (h35 : i ≤ 35)
    (hv : v.length = itemWidth i) : (g.write i v).fields = g.fields.set (i - 1) v := by
  rcases item_cases h1 h35 with ⟨hi, hw⟩ | ⟨hi, hw⟩ | ⟨hi, hw⟩ | ⟨⟨n, rfl⟩, hw⟩
  · obtain ⟨a, rfl⟩ := List.length_eq_one_iff.mp (hv.trans hw)
    exact g.fields_write_byte a hi
  · exact g.fields_write_pair (hv.trans hw) hi
  · exact g.fields_write_quad (hv.trans hw) hi
  · exact g.fields_write_profile n (hv.trans hw)

/-- An element of a concatenation stands after those before it. -/
theorem drop_take_flatten {l : List (List Byte)} {k : Nat} {x : List Byte} (h : l[k]? = some x) :
    (l.flatten.drop ((l.map List.length).take k).sum).take x.length = x := by
  induction l generalizing k with
  | nil => simp at h
  | cons y l ih =>
    cases k with
    | zero =>
      obtain rfl : y = x := by simpa using h
      simp
    | succ k =>
      rw [List.map_cons, List.take_succ_cons, List.sum_cons, List.flatten_cons, ← List.drop_drop, List.drop_left]
      exact ih (by simpa using h)

/-- Where the value of item `j` begins: after the values of the items before it. -/
theorem itemOffset_eq {j : Nat} (h1 : 1 ≤ j) (h35 : j ≤ 35) :
    itemOffset j = (((List.range' 1 35).map itemWidth).take (j - 1)).sum := by
  interval_cases j <;> decide

theorem itemWidths_getElem? {j : Nat} (h1 : 1 ≤ j) (h35 : j ≤ 35) :
    ((List.range' 1 35).map itemWidth)[j - 1]? = some (itemWidth j) := by
  rw [List.getElem?_map, List.getElem?_range' (by omega)]
  simp
  congr 1
  omega

/-- The value of item `j` in the image's bytes. -/
theorem Image.bytes_item (g : Image) {j : Nat} (h1 : 1 ≤ j) (h35 : j ≤ 35) :
    some ((g.bytes.drop (itemOffset j)).take (itemWidth j)) = g.fields[j - 1]? := by
  have hwidth := itemWidths_getElem? h1 h35
  rw [← g.map_length_fields, List.getElem?_map] at hwidth
  obtain ⟨x, hx, hlen⟩ := Option.map_eq_some_iff.mp hwidth
  rw [itemOffset_eq h1 h35, ← g.map_length_fields, ← hlen, ← g.flatten_fields, drop_take_flatten hx, hx]

theorem Image.length_fields (g : Image) : g.fields.length = 35 := by
  simp [Image.fields]

theorem Image.length_bytes (g : Image) : g.bytes.length = 76 := by
  rw [← g.flatten_fields, List.length_flatten, g.map_length_fields]
  decide

/-! ### What the items stand for -/

/-- Settles O48: an item's value is one element of the image's list of values, and writing replaces that element. -/
theorem imageReadsBackWhatWasWritten : Obligations.ImageReadsBackWhatWasWritten := by
  refine ⟨fun g => ⟨⟨?_, ?_, ?_, ?_, ?_, ?_⟩, ⟨rfl, rfl, rfl⟩, ⟨rfl, rfl, rfl, rfl⟩, fun h => ?_, fun h => ?_, fun h => ?_⟩,
    fun g a b c d => ⟨?_, ?_, ?_, fun n => ?_⟩, ⟨rfl, fun i h1 h35 => ⟨?_, ?_⟩⟩,
    fun g i v h1 h35 hv => ⟨?_, ?_, fun j hj1 hj35 hj => ?_⟩⟩
  · exact Nat.mul_comm _ _
  · exact congrArg _ (Nat.mul_comm _ _)
  · exact Nat.mul_comm _ _
  · exact Nat.mul_comm _ _
  · exact Nat.mul_comm _ _
  · rw [Image.settleNs, Nat.mul_assoc, Nat.mul_comm g.holdBaseMs]
    rfl
  · simp [Image.roleOf, Image.isEnd, h, Role.ofByte?]
  · simp [Image.roleOf, Image.isEnd, h, Role.ofByte?]
  · simp [Image.roleOf, Image.isEnd, h, Role.ofByte?]
  · simp [Image.write]
  · simp [Image.write, ofNat_ofBytes_pair]
  · simp [Image.write, ofNat_ofBytes_quad]
  · rw [Image.write_profile, profileOf]
    simp [ofNat_ofBytes_pair]
  · interval_cases i <;> decide
  · simp [itemOffset, List.range_succ]
  · exact Image.length_bytes _
  · have hitem := (g.write i v).bytes_item h1 h35
    rw [g.fields_write h1 h35 hv, List.getElem?_set_self (by rw [Image.length_fields]; omega)] at hitem
    exact Option.some_inj.mp hitem
  · have hitem := (g.write i v).bytes_item hj1 hj35
    rw [g.fields_write h1 h35 hv, List.getElem?_set_ne (by omega), ← g.bytes_item hj1 hj35] at hitem
    exact Option.some_inj.mp hitem

end Sys2Proof.Machine


/-! What no command touches (chapter 2, section 2.1; chapter 8, section 8.3; chapter 9, section 9.2; chapter 10, section
10.6): every operation keeps the clocks, SERVICE, the image, the next sequence, pending notices and rollover flags, but
for the one aspect that a command is there to change. -/

namespace Sys2Proof.Machine

/-! ### What is kept -/

/-- What a command may be there to change. -/
inductive Aspect where
  | stationTime | trim | sequence | notices | flags
  deriving DecidableEq

/-- From `s` to `t` the waiting commands, the interval clock and SERVICE with its image stay, and every aspect that is
not exempt. -/
structure State.Kept (exempt : Aspect → Bool) (s t : State) : Prop where
  pending : t.pending = s.pending := by rfl
  ic : t.tu.ic = s.tu.ic := by rfl
  frac : t.tu.frac = s.tu.frac := by rfl
  stationTime : exempt .stationTime = false → t.tu.st = s.tu.st := by exact fun _ => rfl
  trim : exempt .trim = false → t.tu.trim = s.tu.trim := by exact fun _ => rfl
  sequence : exempt .sequence = false → t.lpc.nextSequence = s.lpc.nextSequence := by exact fun _ => rfl
  service : s.inService = true → t.inService = true ∧ t.image = s.image := by exact fun h => ⟨h, rfl⟩
  notices : exempt .notices = false → ∀ k, (s.snu.notices.get k).pending = true → (t.snu.notices.get k).pending = true
    := by exact fun _ _ h => h
  flags : exempt .flags = false → ∀ n, (s.snu.counter n).rollover = true → (t.snu.counter n).rollover = true
    := by exact fun _ _ h => h

section
variable {C : CounterName → Bool} {K : NoticeKind → Bool} {n m : Statistics}

/-- Counts and raises leave a pending notice pending. -/
theorem Statistics.Work.pending (h : n.Work C K m) {k : NoticeKind} (hk : (n.notices.get k).pending = true) :
    (m.notices.get k).pending = true := by
  have hset {x : NoticeSet} {j : NoticeKind} {y : Notice} (hx : (x.get k).pending = true) (hy : y.pending = true) :
      ((x.set j y).get k).pending = true := by
    by_cases hjk : k = j
    · rw [hjk, NoticeSet.get_set_self, hy]
    · rw [NoticeSet.get_set_of_ne _ _ hjk, hx]
  induction h with
  | refl => exact hk
  | count _ _ ih =>
    rw [Statistics.notices_count]
    split
    · exact hset ih rfl
    · exact ih
  | raise _ _ hx ih => exact hset ih hx

/-- Counts and raises leave a rollover flag set. -/
theorem Statistics.Work.rollover (h : n.Work C K m) {c : CounterName} (hc : (n.counter c).rollover = true) :
    (m.counter c).rollover = true := by
  induction h with
  | refl => exact hc
  | @count m d _ _ ih =>
    rw [Statistics.counter_count]
    split
    · next e => rw [e, Counter.bump, ih, Bool.true_or]
    · exact ih
  | raise _ _ _ ih => rw [Statistics.counter_notices, ih]

end

section
variable {x : Aspect → Bool} {s t u : State}

theorem State.Kept.refl (s : State) : s.Kept x s := {}

theorem State.Kept.trans (h : s.Kept x t) (h' : t.Kept x u) : s.Kept x u where
  pending := h'.pending.trans h.pending
  ic := h'.ic.trans h.ic
  frac := h'.frac.trans h.frac
  stationTime e := (h'.stationTime e).trans (h.stationTime e)
  trim e := (h'.trim e).trans (h.trim e)
  sequence e := (h'.sequence e).trans (h.sequence e)
  service hs := by
    obtain ⟨ht, hg⟩ := h.service hs
    obtain ⟨hu, hg'⟩ := h'.service ht
    exact ⟨hu, hg'.trans hg⟩
  notices e k hk := h'.notices e k (h.notices e k hk)
  flags e c hc := h'.flags e c (h.flags e c hc)

/-- A chain of kept states goes on with an act that keeps. -/
theorem State.Kept.foldl {α : Type} {f : State → α → State} (hf : ∀ (s : State) (a : α), s.Kept x (f s a)) (l : List α) :
    ∀ s : State, s.Kept x (l.foldl f s) := by
  induction l with
  | nil => exact fun s => .refl s
  | cons a l ih => exact fun s => (hf s a).trans (ih _)

theorem State.Kept.count (s : State) (c : CounterName) : s.Kept x (s.count c) :=
  have hwork : s.snu.Work (fun _ => true) (fun _ => true) (s.snu.count c) := Statistics.Work.refl.count rfl
  { notices := fun _ _ => hwork.pending, flags := fun _ _ => hwork.rollover }

theorem State.Kept.countIf (s : State) (b : Bool) (c : CounterName) : s.Kept x (s.countIf b c) := by
  cases b
  · exact .refl s
  · exact .count s c

theorem State.Kept.raiseBit (s : State) (k : NoticeKind) (i : Nat) : s.Kept x (s.raiseBit k i) :=
  have hwork : s.snu.Work (fun _ => true) (fun _ => true) (s.raiseBit k i).snu := Statistics.Work.refl.raise rfl rfl
  { notices := fun _ _ => hwork.pending, flags := fun _ _ => hwork.rollover }

theorem State.Kept.recompute (s : State) : s.Kept x s.recompute :=
  have hwork := recompute_routeWork s
  { notices := fun _ _ => hwork.pending, flags := fun _ _ => hwork.rollover }

/-! ### Queues and copies -/

theorem State.Kept.select (s : State) (p : Port) : s.Kept x (s.select p) :=
  select_induct (P := fun t => s.Kept x t) (fun _ h _ _ => h.trans {}) (fun _ _ _ h _ _ => h.trans {})
    (fun t i q _ h _ _ => h.trans (.trans {} (.count ((t.setQueue p q).release i) _))) (fun _ _ _ _ h _ _ _ _ => h.trans {})
    (.refl s)

theorem State.Kept.flushEntry (p : Port) (s : State) (e : Urgency × Nat) : s.Kept x (State.flushEntry p s e) := by
  have hdrop (i : Nat) (c : CounterName) : s.Kept x ((s.release i).count c) := .trans {} (.count _ _)
  unfold State.flushEntry
  split
  · exact .refl s
  · split
    · exact hdrop _ _
    · split
      · exact hdrop _ _
      · split
        · exact (State.Kept.trans {} (.count _ _)).trans (.select _ _)
        · exact hdrop _ _

theorem State.Kept.flush (s : State) (p : Port) : s.Kept x (s.flush p) :=
  flush_induct (P := fun t => s.Kept x t) (fun t e h => h.trans (.flushEntry p t e)) {}

theorem State.Kept.tryDeliver (s : State) : s.Kept x s.tryDeliver :=
  tryDeliver_induct (P := fun t => s.Kept x t) (fun _ _ _ h _ _ => h.trans {})
    (fun t i l _ h _ _ => h.trans (.trans {} (.count ((t.setDeliveries l).release i) _))) (fun _ _ _ _ h _ _ _ => h.trans {})
    (.refl s)

theorem State.Kept.placeLocal (s : State) (i : Nat) : s.Kept x (s.placeLocal i) := by
  rcases placeLocal_cases s i with ⟨-, h⟩ | ⟨-, h⟩ <;> rw [h]
  · exact .trans {} (.tryDeliver _)
  · exact .count s _

theorem State.Kept.placeCopies (s : State) (i : Nat) (u : Urgency) (ports : List Port) :
    s.Kept x (placeCopies i u ports s).1 :=
  placeCopies_induct (P := fun t => s.Kept x t) (fun _ _ h _ => h.trans {}) (fun _ _ h => h.trans (.count _ _))
    (fun _ _ h => h.trans (.select _ _)) ports s (.refl s)

theorem State.Kept.makeCopies (s : State) (b : Buffer) : s.Kept x (s.makeCopies b).1 :=
  makeCopies_induct (P := fun t => s.Kept x t) (fun _ _ h => h.trans (.count _ _))
    (fun _ h => h.trans (.placeCopies _ _ _ _)) (fun _ h => h.trans (.placeLocal _ _)) (.refl s)

theorem State.Kept.copiesOf (s : State) (i : Nat) : s.Kept x (s.copiesOf i).1 := by
  unfold State.copiesOf
  split
  · exact .makeCopies s _
  · exact .refl s

/-! ### Link events -/

theorem State.Kept.report (s : State) (p : Port) (old new : LinkState) : s.Kept x (s.report p old new) := by
  unfold State.report
  refine .trans ?_ (.countIf _ _ _)
  split
  · exact .raiseBit s _ _
  · split
    · exact .raiseBit s _ _
    · exact .refl s

theorem State.Kept.transition (s : State) (p : Port) (f : LinkRecord → LinkRecord) : s.Kept x (s.transition p f) :=
  .trans {} (.report _ _ _ _)

theorem State.Kept.settleRoutes (s : State) (p : Port) (old : LinkState) (always : Bool) :
    s.Kept x (s.settleRoutes p old always) := by
  have hrouted : s.Kept x (if always || old.reroutes (s.link p).state then s.recompute else s) := by
    split
    · exact .recompute s
    · exact .refl s
  unfold State.settleRoutes
  generalize (if always || old.reroutes (s.link p).state then s.recompute else s) = routed at hrouted ⊢
  dsimp only
  split
  · exact hrouted.trans (.flush _ p)
  · exact hrouted

theorem State.Kept.evaluate (s : State) (p : Port) (timer : Bool) : s.Kept x (s.evaluate p timer) :=
  .transition s p _

theorem State.Kept.setLink (s : State) (p : Port) (r : LinkRecord) : s.Kept x (s.setLink p r) := {}

theorem State.Kept.selfHail (s : State) (p : Port) : s.Kept x (s.selfHail p) := by
  have hforgot (t : State) : t.Kept x (t.forgetCosts p) := {}
  exact ((State.Kept.transition s p _).trans (hforgot _)).trans (.settleRoutes _ _ _ _)

theorem State.Kept.takeFromNeighbour (s : State) (p : Port) (a : Time) (m : Hail) :
    s.Kept x (s.takeFromNeighbour p a m) :=
  (State.Kept.setLink s p _).trans (.countIf _ _ _)

theorem State.Kept.takeCosts (s : State) (p : Port) (m : Hail) : s.Kept x (s.takeCosts p m) := by
  have htable (rc : RouteComputer) : s.Kept x { s with rc := rc } := {}
  exact (htable _).trans (.recompute _)

theorem State.Kept.neighbourHail (s : State) (p : Port) (a : Time) (m : Hail) : s.Kept x (s.neighbourHail p a m) := by
  have hidentified := State.Kept.transition (x := x) s p (fun r => r.identify (fibrePort p) s.now m)
  have htaken := ((hidentified.trans (.takeFromNeighbour _ p a m)).trans (.evaluate _ p false)).trans (.takeCosts _ p m)
  unfold State.neighbourHail
  dsimp only
  split
  · exact htaken.trans (.flush _ p)
  · exact htaken

theorem State.Kept.hail (s : State) (p : Port) (a : Time) (m : Hail) : s.Kept x (s.hail p a m) := by
  unfold State.hail
  split
  · exact .selfHail s p
  · exact .neighbourHail s p a m

theorem State.Kept.statusWord (s : State) (p : Port) (w : StatusWord) : s.Kept x (s.statusWord p w) :=
  ((State.Kept.setLink s p _).trans (.transition _ p _)).trans (.settleRoutes _ _ _ _)

theorem State.Kept.silent (s : State) (p : Port) : s.Kept x (s.silent p) := by
  refine State.Kept.trans ?_ (.settleRoutes _ _ _ _)
  have h := State.Kept.transition (x := x) s p (fun r => r.silent (fibrePort p) s.now)
  split
  · exact h.trans {}
  · exact h

theorem State.Kept.timerEvent (s : State) (p : Port) : s.Kept x (s.timerEvent p) :=
  (State.Kept.transition s p _).trans (.settleRoutes _ _ _ _)

theorem State.Kept.settleEvent (s : State) (p : Port) : s.Kept x (s.settleEvent p) :=
  ((State.Kept.setLink s p _).trans (.transition _ p _)).trans (.settleRoutes _ _ _ _)

theorem State.Kept.act (s : State) (a : Port × Action) : s.Kept x (s.act a) :=
  (State.Kept.setLink s a.1 _).trans (.settleRoutes _ _ _ _)

theorem State.Kept.scheduleEvent (s : State) : s.Kept x s.scheduleEvent := by
  unfold State.scheduleEvent
  split
  · have hdisarmed : s.Kept x { s with tu := s.tu.disarm } := {}
    exact (hdisarmed.trans (.foldl .act _ _)).trans (.raiseBit _ _ _)
  · exact .refl s

/-! ### Line and local port -/

theorem State.Kept.release (s : State) (i : Nat) : s.Kept x (s.release i) := {}

theorem State.Kept.filtered (s : State) (p : Port) (b : Buffer) : s.Kept x (s.filtered p b) := by
  have hwork : s.snu.Work (fun _ => true) (fun _ => true) (s.filtered p b).snu := by
    unfold State.filtered Statistics.judged
    split
    · exact (Statistics.Work.refl.count rfl).count rfl
    · exact Statistics.Work.refl.count rfl
  exact { notices := fun _ _ => hwork.pending, flags := fun _ _ => hwork.rollover }

theorem State.Kept.handOver (s : State) (p : Port) (b : Buffer) : s.Kept x (s.handOver p b) := by
  rw [handOver_eq]
  split
  · exact (State.Kept.filtered s p b).trans (.makeCopies _ b)
  · exact .filtered s p b

theorem State.Kept.endTraffic (s : State) (p : Port) (i : Nat) (f : Frame) : s.Kept x (s.endTraffic p i f) := by
  have hcounted (c : CounterName) (fe : Forwarding) : s.Kept x { s.count c with fe := fe } :=
    (State.Kept.count s c).trans {}
  rcases endTraffic_cases s p i f with h | ⟨hd, payload, ⟨-, h⟩ | ⟨b, -, h⟩⟩ <;> rw [h]
  · exact (State.Kept.count s _).trans (.release _ i)
  · exact hcounted _ _
  · exact ((hcounted _ _).trans (.handOver _ p b)).trans (.release _ i)

theorem State.Kept.sendReply (s : State) : s.Kept x s.sendReply := by
  unfold State.sendReply
  split
  · exact {}
  · exact .refl s

theorem State.Kept.replyDue (s : State) (r : Reply) : s.Kept x (s.replyDue r) :=
  have hdue : s.Kept x { s with lpc := { s.lpc with reply := some r } } := {}
  hdue.trans (.sendReply _)

theorem State.Kept.judgeIngress (s : State) (q : IngressRequest) (hx : x .sequence = true) :
    s.Kept x (s.judgeIngress q) := by
  have hrefused (c : IngressCause) : s.Kept x (s.refuseIngress c) := (State.Kept.count s _).trans (.replyDue _ _)
  unfold State.judgeIngress
  split
  · exact hrefused _
  · unfold State.acceptIngress
    split
    · exact hrefused _
    · next i fe _ =>
      have hmarked : s.Kept x ({ s with fe := fe, af := s.af.ingress s.lpc.nextSequence s.now }.advanceSequence) :=
        { sequence := fun h => absurd (hx.symm.trans h) (by decide) }
      exact ((((hmarked.trans (.copiesOf _ i)).trans (.release _ i)).trans (.count _ _)).trans (.replyDue _ _))

theorem State.Kept.dropDeliveryHead (s : State) : s.Kept x s.dropDeliveryHead := by
  unfold State.dropDeliveryHead
  split
  · exact .refl s
  · exact {}

/-! ### Service line -/

theorem State.Kept.applyCapture (s : State) (c : Stamp) : s.Kept x (s.applyCapture c) := by
  have hcaptured : s.Kept x { s with tu := s.tu.capture c } := {}
  unfold State.applyCapture
  dsimp only
  split
  · exact hcaptured.trans (.raiseBit _ _ _)
  · exact hcaptured

theorem State.Kept.endTimeRead (s : State) (n : Nat) : s.Kept x (s.endTimeRead n) := by
  unfold State.endTimeRead
  split
  · unfold State.applyHeld
    split
    · exact {}
    · exact .trans {} (.applyCapture _ _)
  · exact .refl s

theorem State.Kept.setResult (s : State) (n : TransferName) (r : Result) (i : Option Nat) :
    s.Kept x (s.setResult n r i) := {}

theorem State.Kept.transfer {f : State → State} (hf : ∀ s : State, s.Kept x (f s)) (s : State) (dev : BitVec 2) :
    s.Kept x (s.transfer dev f) := by
  unfold State.transfer
  dsimp only
  split
  · exact (State.Kept.endTimeRead s 0).trans (hf _)
  · exact .endTimeRead s 0

theorem State.Kept.serviceCommand {f : State → State} (hf : ∀ s : State, s.inService = true → s.Kept x (f s)) (s : State)
    (code : Byte) : s.Kept x (s.serviceCommand code f) := by
  unfold State.serviceCommand
  split
  · next h => exact hf s h
  · exact .setResult s _ _ _

theorem State.Kept.startCommand (s : State) : s.Kept x s.startCommand := by
  unfold State.startCommand
  split
  · exact .setResult s _ _ _
  · next hs =>
    split
    · exact .setResult s _ _ _
    · have hstarted : s.Kept x (s.startBlocks.accept codeStart) := { service := fun h => absurd h hs }
      exact hstarted.trans (.foldl .select _ _)

/-- REJOIN's blocks, on what the empty queues leave (R172). -/
theorem State.rejoinBlocks_frame (s : State) :
    ∃ li lm rc af fe lpc, s.rejoinBlocks = { s with
        li := li, tu := { s.tu.disarm with runMark := false }, lm := lm, rc := rc, af := af, fe := fe, lpc := lpc,
        snu := { s.snu with notices := .empty } }
      ∧ lpc.nextSequence = s.lpc.nextSequence := by
  have hframe := emptyQueues_frame s
  unfold State.rejoinBlocks
  rw [hframe]
  refine ⟨_, _, _, _, _, _, rfl, ?_⟩
  unfold LocalPort.cutDelivery
  split <;> rfl

theorem State.Kept.rejoinCommand (hx : x .notices = true) (s : State) : s.Kept x s.rejoinCommand := by
  refine State.Kept.serviceCommand (fun s _ => ?_) s codeRejoin
  have hblocks : s.Kept x s.rejoinBlocks := by
    obtain ⟨li, lm, rc, af, fe, lpc, h, hnext⟩ := s.rejoinBlocks_frame
    rw [h]
    exact { sequence := fun _ => hnext
            notices := fun h => absurd (hx.symm.trans h) (by decide) }
  have haccept (t : State) : t.Kept x (t.accept codeRejoin) := {}
  exact (((hblocks.trans (.recompute _)).trans (haccept _)).trans (.sendReply _)).trans (.foldl .select _ _)

theorem State.Kept.configWrite (s : State) (body : List Byte) : s.Kept x (s.configWrite body) := by
  unfold State.configWrite
  split
  · exact .refl s
  · exact .setResult s _ _ _
  · split
    · exact .setResult s _ _ _
    · next hs => exact { service := fun h => absurd h hs }

theorem State.Kept.adjustTime (s : State) (f : TimeUnit → TimeUnit) (hic : (f s.tu).ic = s.tu.ic)
    (hfrac : (f s.tu).frac = s.tu.frac) (hst : x .stationTime = false → (f s.tu).st = s.tu.st)
    (htrim : x .trim = false → (f s.tu).trim = s.tu.trim) : s.Kept x (s.adjustTime f) := by
  unfold State.adjustTime
  split
  · exact .refl s
  · exact { ic := hic, frac := hfrac, stationTime := hst, trim := htrim }

theorem State.Kept.clearCounters (hx : x .flags = true) (s : State) (mask : BitVec 5) (station : Bool) :
    s.Kept x ((scopesOf mask station).foldl State.clearScope s) := by
  obtain ⟨lm, race, h, -, -⟩ := State.clearScopes_eq (scopesOf mask station) s (scopesOf_nodup mask station)
  rw [h]
  exact { notices := fun _ k hk => by rw [foldl_clearScope_notices]; exact hk
          flags := fun h => absurd (hx.symm.trans h) (by decide) }

theorem State.Kept.readScopes (s : State) (mask : BitVec 5) (station : Bool) (data : List Byte) (n : Nat) :
    s.Kept x { s.read data n with snu := (scopesOf mask station).foldl Statistics.readScope s.snu } :=
  { notices := fun _ k hk => by rw [foldl_readScope_notices]; exact hk
    flags := fun _ c hc => by
      rw [readScopes_counter]
      split
      · exact hc
      · exact hc }

end

/-! ### Commands -/

/-- The aspect that a command is there to change. -/
def exemptOf : Instr → Aspect → Bool
  | .timeStep _ _, .stationTime => true
  | .timeTrim _ _, .trim => true
  | .ingressCompletion _ _, .sequence => true
  | .rejoin _, .notices => true
  | .ackNotices _ _, .notices => true
  | .clearCounters _ _ _, .flags => true
  | .clearRollover _ _ _ _, .flags => true
  | _, _ => false

/-- Every command but POWER_ON keeps all but its own aspect. -/
theorem exec_kept {c : Instr} {s t : State} (hc : c ≠ .powerOn) (h : exec c s = .next t) : s.Kept (exemptOf c) t := by
  have hread (s : State) (data : List Byte) (n : Nat) : s.Kept (exemptOf c) (s.read data n) := {}
  have hdrew (s : State) : s.Kept (exemptOf c) s.drew := {}
  have hrx {p : Port} (s : State) (r : Reception) : s.Kept (exemptOf c) (s.setRx p r) := {}
  have htx {p : Port} (s : State) (m : Transmission) : s.Kept (exemptOf c) (s.setTx p m) := {}
  cases c with
  | powerOn => exact absurd rfl hc
  | powerOnResetRelease dc =>
    cases h
    split
    · exact {}
    · exact .refl s
  | arrivalStart p cls =>
    cases h
    split
    · split
      · rcases beginTraffic_cases s p with ⟨i, fe, -, h⟩ | ⟨-, h⟩ <;> rw [h]
        · exact {}
        · exact (State.Kept.count s _).trans (hrx _ _)
      · split
        · exact hrx s _
        · exact hrx s _
    · exact .refl s
  | trafficArrivalCompletion p f =>
    cases h
    cases s.rx p with
    | traffic i => exact (hrx s _).trans (.endTraffic _ p i f)
    | unstored | abandonedUnknown => exact hrx s _
    | unknownClass => exact (hrx s _).trans (.count _ _)
    | abandonedTraffic i => exact (hrx s _).trans (.release _ i)
    | idle | hail a | abandonedHail => exact .refl s
  | hailArrivalCompletion p f =>
    cases h
    cases s.rx p with
    | hail a =>
      cases checkHail f with
      | none => exact (hrx s _).trans (.count _ _)
      | some m => exact ((hrx s _).trans (.count _ _)).trans (.hail _ p a m)
    | abandonedHail => exact hrx s _
    | idle | traffic i | unstored | unknownClass | abandonedTraffic i | abandonedUnknown => exact .refl s
  | modemStatusWord p word =>
    cases h
    split
    · split
      · exact .statusWord s p _
      · exact .refl s
    · exact .refl s
  | hailTimerExpiry p =>
    cases h
    split
    · exact (State.Kept.setLink s p _).trans (.select _ p)
    · exact .refl s
  | silenceExpiry p => cases h; split; exacts [.silent s p, .refl s]
  | holdExpiry p => cases h; split; exacts [.timerEvent s p, .refl s]
  | trialExpiry p => cases h; split; exacts [.timerEvent s p, .refl s]
  | settleExpiry p => cases h; split; exacts [.settleEvent s p, .refl s]
  | fadeTimeAccrual p =>
    cases h
    split
    · exact (State.Kept.setLink s p _).trans (.count _ _)
    · exact .refl s
  | departureCompletion p =>
    cases h
    split
    · exact .refl s
    · exact (htx s _).trans (.select _ p)
    · exact (((State.Kept.count s _).trans (.release _ _)).trans (htx _ _)).trans (.select _ p)
  | tinRisingEdge =>
    cases h
    split
    · exact {}
    · exact .trans {} (.applyCapture _ _)
  | scheduleMatch => cases h; exact .scheduleEvent s
  | ingressCompletion bytes aborted =>
    cases h
    split
    · exact .refl s
    · have hdone : s.Kept (exemptOf (.ingressCompletion bytes aborted)) { s with lpc := { s.lpc with request := none } } := {}
      dsimp only
      split
      · exact hdone
      · exact (hdone.trans (hdrew _)).trans (.judgeIngress _ _ rfl)
  | replyEnd =>
    cases h
    split
    · exact .trans {} (.tryDeliver _)
    · exact .refl s
  | deliveryReady => cases h; exact .trans {} (.tryDeliver _)
  | deliveryCompletion =>
    cases h
    split
    · have hdone (t : State) : t.Kept (exemptOf .deliveryCompletion)
          { t with lpc := { t.lpc with delivering := none, outwardEnd := some .normal } } := {}
      exact ((((State.Kept.dropDeliveryHead s).trans (.count _ _)).trans (hdone _)).trans (.sendReply _)).trans
        (.tryDeliver _)
    · exact .refl s
  | start dev => cases h; exact .transfer .startCommand s dev
  | rejoin dev => cases h; exact .transfer (.rejoinCommand rfl) s dev
  | force dev mask actions =>
    cases h
    refine .transfer (.serviceCommand (fun s _ => ?_) · _) s dev
    split
    · exact .setResult s _ _ _
    · exact (State.Kept.foldl .act _ s).trans (.setResult _ _ _ _)
  | armSchedule dev target action mask =>
    cases h
    refine .transfer (.serviceCommand (fun s _ => ?_) · _) s dev
    split
    · exact .setResult s _ _ _
    · exact (State.Kept.trans {} (.scheduleEvent _)).trans (.setResult _ _ _ _)
  | disarm dev => cases h; exact .transfer (.serviceCommand (fun s _ => {}) · _) s dev
  | timeStep dev offset =>
    cases h
    refine .transfer (fun s => ?_) s dev
    split
    · exact .setResult s _ _ _
    · exact ((State.Kept.adjustTime s _ rfl rfl (fun h => by cases h) (fun _ => rfl)).trans (.scheduleEvent _)).trans
        (.setResult _ _ _ _)
  | timeTrim dev trim =>
    cases h
    exact .transfer (fun s => (State.Kept.adjustTime s _ rfl rfl (fun _ => rfl) (fun h => by cases h)).trans
        (.setResult _ _ _ _)) s dev
  | clearCounters dev mask station =>
    cases h
    exact .transfer (.serviceCommand (fun s _ => (State.Kept.clearCounters rfl s mask station).trans (.setResult _ _ _ _)) · _)
      s dev
  | clearRollover dev mask station sets =>
    cases h
    refine .transfer (.serviceCommand (fun s _ => ?_) · _) s dev
    split
    · exact .setResult s _ _ _
    · exact { notices := fun _ k hk => by
                show ((s.snu.clearRollovers _).notices.get k).pending = true
                rw [foldl_clearRollover_notices]; exact hk
              flags := fun h => by cases h }
  | ackNotices dev kinds =>
    cases h
    refine .transfer (.serviceCommand (fun s _ => ?_) · _) s dev
    split
    · exact .setResult s _ _ _
    · exact { notices := fun h => by cases h
              flags := fun _ c hc => by
                show (Statistics.counter { s.snu with notices := s.snu.notices.acked kinds } c).rollover = true
                rw [Statistics.counter_notices]; exact hc }
  | unknownCommand dev code => cases h; exact .transfer (.setResult · _ _ _) s dev
  | configWrite dev body => cases h; exact .transfer (.configWrite · body) s dev
  | statusRead dev mask clocks =>
    cases h
    exact .transfer (fun s =>
      { notices := fun _ k hk => by
          show ((s.snu.notices.marked).get k).pending = true
          rw [NoticeSet.marked_get, Notice.marked, if_pos hk]; exact hk
        flags := fun _ c hc => by
          show (Statistics.counter { s.snu with notices := s.snu.notices.marked } c).rollover = true
          rw [Statistics.counter_notices]; exact hc }) s dev
  | counterRead dev mask station clocks => cases h; exact .transfer (.readScopes · mask station _ clocks) s dev
  | tableReadLink dev mask clocks => cases h; exact .transfer (fun s => (hread s _ _).trans (hdrew _)) s dev
  | tableReadCost dev clocks => cases h; exact .transfer (hread · _ _) s dev
  | tableReadSeen dev clocks => cases h; exact .transfer (fun s => (hread s _ _).trans (hdrew _)) s dev
  | tableReadRing dev clocks => cases h; exact .transfer (hread · _ _) s dev
  | tableReadRace dev mask clocks => cases h; exact .transfer (hread · _ _) s dev
  | tableReadConfig dev clocks => cases h; exact .transfer (hread · _ _) s dev
  | tableReadUnknown dev clocks => cases h; exact .transfer (fun s => (hread s _ _).trans (.setResult _ _ _ _)) s dev
  | timeRead dev => cases h; exact .transfer (fun s => {}) s dev
  | timeReadRelease clocks => cases h; exact .endTimeRead s clocks
  | unknownTransferType dev type => cases h; exact .transfer (.setResult · _ _ _) s dev
  | transferCutShort => cases h; exact .endTimeRead s 0
  | ingressStart =>
    cases h
    split
    · exact {}
    · exact .refl s
  | deliveryReadyWithdrawn => cases h; exact {}

theorem exemptOf_stationTime {c : Instr} (h : ∀ dev x, c ≠ .timeStep dev x) : exemptOf c .stationTime = false := by
  cases c with
  | timeStep dev x => exact absurd rfl (h dev x)
  | _ => rfl

theorem exemptOf_trim {c : Instr} (h : ∀ dev x, c ≠ .timeTrim dev x) : exemptOf c .trim = false := by
  cases c with
  | timeTrim dev x => exact absurd rfl (h dev x)
  | _ => rfl

theorem exemptOf_sequence {c : Instr} (h : ∀ b a, c ≠ .ingressCompletion b a) : exemptOf c .sequence = false := by
  cases c with
  | ingressCompletion b a => exact absurd rfl (h b a)
  | _ => rfl

theorem exemptOf_notices {c : Instr} (hr : ∀ dev, c ≠ .rejoin dev) (ha : ∀ dev x, c ≠ .ackNotices dev x) :
    exemptOf c .notices = false := by
  cases c with
  | rejoin dev => exact absurd rfl (hr dev)
  | ackNotices dev x => exact absurd rfl (ha dev x)
  | _ => rfl

theorem exemptOf_flags {c : Instr} (hc : ∀ dev m b, c ≠ .clearCounters dev m b)
    (hv : ∀ dev m b l, c ≠ .clearRollover dev m b l) : exemptOf c .flags = false := by
  cases c with
  | clearCounters dev m b => exact absurd rfl (hc dev m b)
  | clearRollover dev m b l => exact absurd rfl (hv dev m b l)
  | _ => rfl

/-- Settles O60: POWER_ON keeps the waiting commands, every other command all but the aspect it is there to change. -/
theorem commandsLeaveWhatIsNotTheirs : Obligations.CommandsLeaveWhatIsNotTheirs := by
  intro c s t h
  by_cases hc : c = .powerOn
  · subst hc
    cases h
    exact ⟨rfl, fun hc => absurd rfl hc⟩
  · obtain ⟨hpending, hic, hfrac, hst, htrim, hsequence, hservice, hnotices, hflags⟩ := exec_kept hc h
    exact ⟨hpending, fun _ => ⟨hic, hfrac, fun hx => hst (exemptOf_stationTime hx), fun hx => htrim (exemptOf_trim hx),
      fun hx => hsequence (exemptOf_sequence hx), hservice, fun hr ha => hnotices (exemptOf_notices hr ha),
      fun _ hc hv => hflags (exemptOf_flags hc hv)⟩⟩

end Sys2Proof.Machine


/-! The end of a good traffic frame (chapter 1, section 1.5; chapter 6, sections 6.2 and 6.4; chapter 7, section 7.2): the
hop step, the verdict with its counter, the Race Ring and the race statistics. -/

namespace Sys2Proof.Machine

/-! ### The header -/

/-- The hop delay of R118 leaves all of the header but the route delay and INEXACT. -/
theorem RouteHeader.addHop_frame (h : RouteHeader) (d : Option Nat) :
    h.addHop d = { h with routeDelay := (h.addHop d).routeDelay, inexact := (h.addHop d).inexact } := by
  cases d with
  | none => rfl
  | some d =>
    rw [RouteHeader.addHop, RouteHeader.addDelay]
    split <;> rfl

theorem RouteHeader.addHop_of_room {h : RouteHeader} {d : Nat} (hd : h.routeDelay + d ≤ 4294967295) :
    h.addHop (some d) = { h with routeDelay := h.routeDelay + d } :=
  if_neg (Nat.not_lt.mpr hd)

theorem RouteHeader.addHop_of_full {h : RouteHeader} {d : Nat} (hd : 4294967295 < h.routeDelay + d) :
    h.addHop (some d) = { h with routeDelay := 4294967295, inexact := true } :=
  if_pos hd

/-! ### The Race Ring and the race statistics -/

theorem ArrivalFilter.after_of_first {v : ArrivalFilter} {j : Judgement} (h : j.verdict = .first) (p : Port) (a : Time)
    (o : Nat) (n : Byte) (q : BitVec 16) :
    v.after j p a o n q = { v with slots := j.slots, ring := addToRing v.ring ⟨o, n, q, .line p, a⟩ } := by
  rw [ArrivalFilter.after, h]

theorem ArrivalFilter.after_of_dup {v : ArrivalFilter} {j : Judgement} (h : j.verdict = .dup) (p : Port) (a : Time)
    (o : Nat) (n : Byte) (q : BitVec 16) :
    v.after j p a o n q = ArrivalFilter.measure { v with slots := j.slots } p a o n q := by
  rw [ArrivalFilter.after, h]

theorem ArrivalFilter.after_of_other {v : ArrivalFilter} {j : Judgement} (hfirst : j.verdict ≠ .first)
    (hdup : j.verdict ≠ .dup) (p : Port) (a : Time) (o : Nat) (n : Byte) (q : BitVec 16) :
    v.after j p a o n q = { v with slots := j.slots } := by
  rw [ArrivalFilter.after]
  cases hj : j.verdict with
  | first => exact absurd hj hfirst
  | dup => exact absurd hj hdup
  | stale | echo | noSlot => rfl

theorem ArrivalFilter.measure_frame (v : ArrivalFilter) (p : Port) (a : Time) (o : Nat) (n : Byte) (q : BitVec 16) :
    v.measure p a o n q = { v with race := (v.measure p a o n q).race } := by
  rw [ArrivalFilter.measure]
  cases ringEntry? v.ring o n q <;> rfl

/-- An entry of the ring that is of the message. -/
abbrev RingEntry.ofMessage (o : Nat) (n : Byte) (q : BitVec 16) (e : RingEntry) : Prop :=
  e.origin = o ∧ e.startNumber = n ∧ e.sequence = q

theorem ringEntry?_of_none {ring : List RingEntry} {o : Nat} {n : Byte} {q : BitVec 16}
    (h : ∀ e ∈ ring, ¬ e.ofMessage o n q) : ringEntry? ring o n q = none := by
  rw [ringEntry?, List.find?_eq_none]
  intro e he
  have := h e (List.mem_reverse.mp he)
  simpa [RingEntry.ofMessage, and_assoc] using this

/-- The newest entry of the message is found (R111). -/
theorem ringEntry?_of_newest {o : Nat} {n : Byte} {q : BitVec 16} {l1 l2 : List RingEntry} {e : RingEntry}
    (he : e.ofMessage o n q) (h : ∀ x ∈ l2, ¬ x.ofMessage o n q) : ringEntry? (l1 ++ e :: l2) o n q = some e := by
  have hlater : ringEntry? l2 o n q = none := ringEntry?_of_none h
  rw [ringEntry?] at hlater ⊢
  rw [List.reverse_append, List.reverse_cons, List.append_assoc, List.find?_append, hlater]
  simp [he.1, he.2.1, he.2.2]

/-- The filter after a verdict (R110 to R112). -/
theorem ArrivalFilter.after_spec (v : ArrivalFilter) (j : Judgement) (p : Port) (a : Time) (o : Nat) (n : Byte)
    (q : BitVec 16) :
    let t := v.after j p a o n q
    t = { v with slots := j.slots, ring := t.ring, race := t.race }
      ∧ (j.verdict = .first → t.ring = addToRing v.ring ⟨o, n, q, .line p, a⟩)
      ∧ (j.verdict ≠ .first → t.ring = v.ring) ∧ (j.verdict ≠ .dup → t.race = v.race)
      ∧ (j.verdict = .dup → (∀ e ∈ v.ring, ¬ e.ofMessage o n q) → t.race = v.race) := by
  by_cases hfirst : j.verdict = .first
  · rw [ArrivalFilter.after_of_first hfirst]
    exact ⟨rfl, fun _ => rfl, fun h => absurd hfirst h, fun _ => rfl, fun h => by rw [hfirst] at h; cases h⟩
  · by_cases hdup : j.verdict = .dup
    · rw [ArrivalFilter.after_of_dup hdup, ArrivalFilter.measure_frame]
      refine ⟨rfl, fun h => absurd h hfirst, fun _ => rfl, fun h => absurd hdup h, fun _ hnone => ?_⟩
      rw [ArrivalFilter.measure, ringEntry?_of_none hnone]
    · rw [ArrivalFilter.after_of_other hfirst hdup]
      exact ⟨rfl, fun h => absurd h hfirst, fun _ => rfl, fun _ => rfl, fun h => absurd h hdup⟩

/-- A DUP is measured against the newest entry of its message (R111, R112). -/
theorem ArrivalFilter.after_race_of_dup {v : ArrivalFilter} {j : Judgement} (hdup : j.verdict = .dup) (p : Port)
    (a : Time) {o : Nat} {n : Byte} {q : BitVec 16} {l1 l2 : List RingEntry} {e : RingEntry}
    (hring : v.ring = l1 ++ e :: l2) (he : e.ofMessage o n q) (hnewest : ∀ x ∈ l2, ¬ x.ofMessage o n q) :
    (v.after j p a o n q).race = v.race.set p ((v.race.get p).add (lateness a e.arrival)) := by
  have hfound : ringEntry? v.ring o n q = some e := by
    rw [hring]
    exact ringEntry?_of_newest he hnewest
  rw [ArrivalFilter.after_of_dup hdup, ArrivalFilter.measure, hfound]

theorem addToRing_of_room {ring : List RingEntry} (e : RingEntry) (h : ring.length < 64) :
    addToRing ring e = ring ++ [e] := by
  rw [addToRing, if_pos (show ring.length < Config.ringLimit from h)]

theorem addToRing_of_full {x : RingEntry} {l : List RingEntry} (e : RingEntry) (h : (x :: l).length = 64) :
    addToRing (x :: l) e = l ++ [e] := by
  rw [addToRing, if_neg (by rw [h]; decide), h]
  rfl

/-! ### The good frame -/

theorem Forwarding.update_eq_const {f : Forwarding} (hf : f.wf) {i : Nat} {b : Buffer} (hb : f.buffer? i = some b)
    (h : Buffer → Buffer) : f.update i h = f.update i (fun _ => h b) := by
  simp only [Forwarding.update]
  congr 1
  refine List.map_congr_left fun x hx => ?_
  split
  · next hid =>
    have := (Forwarding.buffer?_eq_some_iff hf i x).mpr ⟨hx, hid⟩
    rw [hb] at this
    rw [Option.some.inj this]
  · rfl

/-- The buffer of a good frame, with its payload and the header stepped (R14, R118). -/
def Buffer.stepped (b : Buffer) (h : RouteHeader) (delay : Option Nat) (payload : List Byte) : Buffer :=
  { b with header := h.hopStep.addHop delay, payload := payload }

/-- The steps leave what names the message. -/
theorem Buffer.stepped_names (b : Buffer) (h : RouteHeader) (delay : Option Nat) (payload : List Byte) :
    (b.stepped h delay payload).header.origin = h.origin
      ∧ (b.stepped h delay payload).header.startNumber = h.startNumber
      ∧ (b.stepped h delay payload).header.sequence = h.sequence := by
  have hframe := h.hopStep.addHop_frame delay
  simp only [Buffer.stepped]
  rw [hframe]
  exact ⟨rfl, rfl, rfl⟩

theorem State.judged_stepped (s : State) (b : Buffer) (h : RouteHeader) (delay : Option Nat) (payload : List Byte) :
    s.judged (b.stepped h delay payload)
      = judge s.image.number s.image.idleNs s.now s.af.slots h.origin h.startNumber h.sequence := by
  obtain ⟨ho, hn, hq⟩ := b.stepped_names h delay payload
  rw [State.judged, ho, hn, hq]

/-- A good frame counted, with its buffer as the hop step leaves it, before its hand-over (R14). -/
def State.received (s : State) (p : Port) (i : Nat) (b : Buffer) : State :=
  { (s.setRx p .idle).count (.port p .rxGood) with fe := s.fe.update i (fun _ => b) }

theorem endTraffic_of_good {s : State} {p : Port} {i : Nat} {b : Buffer} {f : Frame} {h : RouteHeader}
    {payload : List Byte} (hwf : s.fe.wf) (hb : s.fe.buffer? i = some b) (hc : checkTraffic f = some (h, payload)) :
    s.endTraffic p i f = (State.handOver { s.count (.port p .rxGood) with
      fe := s.fe.update i (fun _ => b.stepped h (s.link p).delay payload) } p
        (b.stepped h (s.link p).delay payload)).release i := by
  have hstored : (s.fe.update i (fun b => b.stepped h (s.link p).delay payload)).buffer? i
      = some (b.stepped h (s.link p).delay payload) := by
    rw [Forwarding.update_buffer?_self _ _ (fun b => b.stepped h (s.link p).delay payload) (fun _ => rfl), hb]
    rfl
  rw [← Forwarding.update_eq_const hwf hb (fun b => b.stepped h (s.link p).delay payload)]
  simp only [State.endTraffic, hc]
  unfold State.goodTraffic
  dsimp only
  split
  · next b' hb' =>
    obtain rfl : b.stepped h (s.link p).delay payload = b' := Option.some.inj (hstored.symm.trans hb')
    rfl
  · next hnone => exact absurd (hstored.symm.trans hnone) (by simp)

/-- Settles O10: the frame's end unfolded once, the Race Ring and statistics by the verdict. -/
theorem goodFrameIsSteppedFilteredAndReleased : Obligations.GoodFrameIsSteppedFilteredAndReleased := by
  refine ⟨?_, ?_, fun p => ⟨rfl, rfl, rfl, rfl, rfl⟩, fun ring e => ⟨addToRing_of_room e, ?_⟩⟩
  · intro p f s i b h payload hwf hrx hb hc
    have hframe := h.hopStep.addHop_frame (s.link p).delay
    obtain ⟨ho, hn, hq⟩ := b.stepped_names h (s.link p).delay payload
    have hjudged := (s.received p i (b.stepped h (s.link p).delay payload)).judged_stepped b h (s.link p).delay payload
    refine ⟨b.stepped h (s.link p).delay payload, (s.received p i (b.stepped h (s.link p).delay payload)).filtered p
      (b.stepped h (s.link p).delay payload), rfl, hframe, fun hd => ?_, fun d hd hroom => ?_, fun d hd hfull => ?_, ?_, ?_, ?_⟩
    · simp only [Buffer.stepped, hd]
      exact ⟨rfl, rfl⟩
    · simp only [Buffer.stepped, hd]
      rw [RouteHeader.addHop_of_room (h := h.hopStep) hroom]
      exact ⟨rfl, rfl⟩
    · simp only [Buffer.stepped, hd]
      rw [RouteHeader.addHop_of_full (h := h.hopStep) hfull]
      exact ⟨rfl, rfl⟩
    · rw [State.filtered, hjudged, ho, hn, hq]
      rfl
    · rw [State.filtered, hjudged]
      rfl
    · have hcompletion : exec (.trafficArrivalCompletion p f) s = .next ((s.setRx p .idle).endTraffic p i f) := by
        simp only [exec, execTrafficArrivalCompletion, hrx]
      have hend := endTraffic_of_good (s := s.setRx p .idle) (p := p) hwf hb hc
      rw [hcompletion, hend]
      refine congrArg (fun t : State => Host.Outcome.next (t.release i))
        ((handOver_eq (s.received p i (b.stepped h (s.link p).delay payload)) p
          (b.stepped h (s.link p).delay payload)).trans ?_)
      rw [hjudged]
      rfl
  · intro v j p a o n q
    obtain ⟨hframe, hfirst, hring, hrace, hnone⟩ := v.after_spec j p a o n q
    refine ⟨hframe, hfirst, hring, hrace, hnone, fun l1 e l2 hdup hv he hnewest => ?_⟩
    have hmeasured := ArrivalFilter.after_race_of_dup hdup p a hv he hnewest
    refine ⟨?_, fun x hx => ?_⟩
    · rw [hmeasured, PerPort.get_set_self]
      rfl
    · rw [hmeasured, PerPort.get_set_of_ne _ _ hx]
  · rintro x l rfl hlen
    exact addToRing_of_full e hlen

end Sys2Proof.Machine


/-! The outward path (chapter 8, sections 8.1 and 8.4; chapter 11, section 11.2): delivery starts, replies and the delivery
record. -/

namespace Sys2Proof.Machine

/-! ### The delivery record -/

theorem DeliveryRecord.length_bytes (d : DeliveryRecord) : d.bytes.length = 26 + d.payload.length := by
  simp [DeliveryRecord.bytes]
  omega

theorem deliveryFields_bytes (d : DeliveryRecord) : deliveryFields d.bytes d := by
  have hu := d.urgency.toNat_lt
  have hbyte : bytesAt d.bytes 0 1 = d.kind.toNat * 64 + (if d.inexact then 32 else 0) + d.urgency.toNat := by
    simp [DeliveryRecord.bytes, kindByte_toNat]
  have hsequence := ofBytes_beBytes_toNat d.sequence (n := 2) rfl
  unfold deliveryFields
  rw [hbyte]
  refine ⟨d.length_bytes, fun h => ?_, fun h => ?_, ?_, ?_, ?_, fun h => ?_, fun h => ?_, ?_, ?_, fun h => ?_,
    fun p h => ?_, ?_, ?_, fun h => ?_, fun h => ?_, ?_⟩
  · rw [h, Kind.toNat]
    split <;> omega
  · rw [h, Kind.toNat]
    split <;> omega
  · rw [Nat.testBit_eq_decide_div_mod_eq]
    cases d.kind <;> cases d.inexact <;> simp [Kind.toNat] <;> omega
  · cases d.kind <;> cases d.inexact <;> simp [Kind.toNat] <;> omega
  · cases d.kind <;> cases d.inexact <;> simp [Kind.toNat] <;> omega
  · simpa [DeliveryRecord.bytes, bytesAt_cons_succ] using h
  · simpa [DeliveryRecord.bytes, bytesAt_cons_succ] using h
  · simp [DeliveryRecord.bytes, bytesAt_cons_succ]
  · simp [DeliveryRecord.bytes, bytesAt_cons_succ, hsequence]
  · simpa [DeliveryRecord.bytes, bytesAt_cons_succ, bytesAt_append_right] using h
  · have := portNumber_lt p
    simp [DeliveryRecord.bytes, bytesAt_cons_succ, bytesAt_append_right, h, Origin.toNat]
    omega
  · simp [DeliveryRecord.bytes, bytesAt_cons_succ, bytesAt_append_right]
  · simp [DeliveryRecord.bytes, bytesAt_cons_succ, bytesAt_append_right]
  · have hdelay := ofBytes_beBytes_of_lt (n := 4) (v := d.routeDelay) (by omega)
    simp [DeliveryRecord.bytes, bytesAt_cons_succ, bytesAt_append_right, hdelay]
  · have hlength := ofBytes_beBytes_of_lt (n := 2) (v := d.length) (by omega)
    simp [DeliveryRecord.bytes, bytesAt_cons_succ, bytesAt_append_right, hlength]
  · simp [DeliveryRecord.bytes, drop_append_past]

/-! ### Delivery starts -/

theorem tryDeliver_of_open {s : State} (hready : s.lpc.deliveryReady = true) (hnone : s.lpc.delivering = none)
    (hreply : s.lpc.reply = none) : s.tryDeliver = deliverFrom (s.lpc.queue.length + 1) s := by
  simp [State.tryDeliver, hready, hnone, hreply]

theorem tryDeliver_of_closed {s : State}
    (h : s.lpc.deliveryReady = false ∨ s.lpc.delivering ≠ none ∨ s.lpc.reply ≠ none) : s.tryDeliver = s := by
  rw [State.tryDeliver, if_neg]
  rcases h with h | h | h <;> simp [h]

theorem tryDeliver_of_young {s : State} {i : Nat} {l : List Nat} {b : Buffer} (hready : s.lpc.deliveryReady = true)
    (hnone : s.lpc.delivering = none) (hreply : s.lpc.reply = none) (hq : s.lpc.queue = i :: l)
    (hb : s.fe.buffer? i = some b) (hage : b.age s.now ≤ s.image.ageNs) :
    s.tryDeliver = { s with lpc := { s.lpc with delivering := some (b.record s.now) } } := by
  rw [tryDeliver_of_open hready hnone hreply, deliverFrom, hq]
  dsimp only
  rw [hb]
  exact if_neg (Nat.not_lt.mpr hage)

/-- A head older than AGE_LIMIT is dropped, and the test goes on with the queue's rest (R143). -/
theorem tryDeliver_of_old {s : State} {i : Nat} {l : List Nat} {b : Buffer} (hready : s.lpc.deliveryReady = true)
    (hnone : s.lpc.delivering = none) (hreply : s.lpc.reply = none) (hq : s.lpc.queue = i :: l)
    (hb : s.fe.buffer? i = some b) (hage : s.image.ageNs < b.age s.now) :
    s.tryDeliver = (((s.setDeliveries l).release i).count (.station .deliveryDrop)).tryDeliver := by
  have hrest : (((s.setDeliveries l).release i).count (.station .deliveryDrop)).tryDeliver
      = deliverFrom (l.length + 1) (((s.setDeliveries l).release i).count (.station .deliveryDrop)) :=
    tryDeliver_of_open hready hnone hreply
  rw [hrest, tryDeliver_of_open hready hnone hreply, deliverFrom, hq]
  dsimp only
  rw [hb]
  exact if_pos hage

/-- The route delay of a delivered message: its residence added, saturating with INEXACT (R8, R144). -/
theorem RouteHeader.addDelay_eq (h : RouteHeader) (d : Nat) :
    h.addDelay d = { h with routeDelay := min (h.routeDelay + d) 4294967295,
                            inexact := h.inexact || decide (4294967295 < h.routeDelay + d) } := by
  unfold RouteHeader.addDelay
  by_cases hd : 4294967295 < h.routeDelay + d
  · have hmin : min (h.routeDelay + d) 4294967295 = 4294967295 := by omega
    rw [if_pos (show Config.routeDelayLimit < h.routeDelay + d from hd), hmin]
    simp [hd, Config.routeDelayLimit]
  · have hmin : min (h.routeDelay + d) 4294967295 = h.routeDelay + d := by omega
    rw [if_neg (show ¬Config.routeDelayLimit < h.routeDelay + d from hd), hmin]
    simp [hd]

/-! ### The end of a delivery -/

theorem sendReply_of_none {s : State} (h : s.lpc.reply = none) : s.sendReply = s := by
  simp [State.sendReply, h]

theorem sendReply_of_some {s : State} (h : s.lpc.reply ≠ none) (hd : s.lpc.delivering = none) :
    s.sendReply = { s with lpc := { s.lpc with replySending := true } } := by
  rw [State.sendReply, if_pos]
  simp [hd, Option.isSome_iff_ne_none, h]

theorem exec_deliveryCompletion_of {s : State} {i : Nat} {l : List Nat} (hd : s.lpc.delivering ≠ none)
    (hq : s.lpc.queue = i :: l) :
    exec .deliveryCompletion s
      = .next (((({ s with lpc := { s.lpc with queue := l, delivering := none, outwardEnd := some .normal } }
          : State).release i).count (.station .delivered)).sendReply.tryDeliver) := by
  have hdrop : s.dropDeliveryHead = (s.setDeliveries l).release i := by rw [State.dropDeliveryHead, hq]
  refine congrArg Host.Outcome.next ((if_pos (Option.isSome_iff_ne_none.mpr hd)).trans ?_)
  rw [hdrop]
  rfl

/-! ### The obligation -/

/-- Settles O41: the delivery start by its conditions and its head, the ends of what is being sent by one unfolding. -/
theorem outwardPathDeliversAndReplies : Obligations.OutwardPathDeliversAndReplies := by
  refine ⟨fun s => ⟨fun h => ?_, fun i l b hready hnone hreply hq hb => ⟨fun hage => ?_,
      fun hage => tryDeliver_of_old hready hnone hreply hq hb hage⟩⟩, deliveryFields_bytes,
    fun s => ⟨fun h => ?_, fun h => ?_, rfl, rfl, fun h => ?_, fun i l hd hq => ⟨fun hr => ?_, fun hr => ?_⟩⟩⟩
  · rcases h with h | h | h | h
    · exact tryDeliver_of_closed (.inl h)
    · exact tryDeliver_of_closed (.inr (.inl h))
    · exact tryDeliver_of_closed (.inr (.inr h))
    · exact tryDeliver_of_empty h
  · refine ⟨min (b.header.routeDelay + b.age s.now) 4294967295,
      b.header.inexact || decide (4294967295 < b.header.routeDelay + b.age s.now), b.record s.now,
      tryDeliver_of_young hready hnone hreply hq hb hage, ?_, rfl, ?_⟩
    · rw [Buffer.record, RouteHeader.addDelay_eq]
    · rw [Bool.or_eq_true, decide_eq_true_iff]
      rfl
  · exact congrArg Host.Outcome.next (if_neg (Bool.eq_false_iff.mp h))
  · exact congrArg Host.Outcome.next (if_pos h)
  · exact congrArg Host.Outcome.next (if_neg (by simp [h]))
  · refine (exec_deliveryCompletion_of hd hq).trans (congrArg Host.Outcome.next (congrArg State.tryDeliver ?_))
    exact sendReply_of_none (by exact hr)
  · refine (exec_deliveryCompletion_of hd hq).trans (congrArg Host.Outcome.next ?_)
    exact (congrArg State.tryDeliver (sendReply_of_some (by exact hr) (by rfl))).trans (tryDeliver_of_closed (.inr (.inr hr)))

end Sys2Proof.Machine


/-! Ingress requests (chapter 8, sections 8.1 to 8.3; chapter 11, section 11.2): those that are discarded or refused. -/

namespace Sys2Proof.Machine

/-! ### The first test that a request fails -/

section
variable {s : State} {q : IngressRequest}

theorem ingressCause?_of_config (h : s.inService = false) : s.ingressCause? q = some .notInService := by
  simp [State.ingressCause?, h]

theorem ingressCause?_of_role (hs : s.inService = true)
    (h : s.image.roleOf = .relay ∨ q.kind = .flood ∧ s.image.roleOf ≠ .source) : s.ingressCause? q = some .role := by
  simp only [State.ingressCause?, hs, Bool.not_true, Bool.false_eq_true, if_false]
  exact if_pos h

/-- The tests on role and length behind it, a request's cause is the one that its target gives. -/
theorem ingressCause?_of_role_ok (hs : s.inService = true)
    (h : ¬(s.image.roleOf = .relay ∨ q.kind = .flood ∧ s.image.roleOf ≠ .source)) :
    (q.payload.length < 8 ∨ 1024 < q.payload.length → s.ingressCause? q = some .length)
    ∧ (8 ≤ q.payload.length → q.payload.length ≤ 1024 →
      (q.kind = .flood → s.ingressCause? q = none)
      ∧ (q.kind = .aimed → q.target < 1 ∨ 63 < q.target ∨ q.target = s.image.number → s.ingressCause? q = some .target)
      ∧ (q.kind = .aimed → ¬(q.target < 1 ∨ 63 < q.target ∨ q.target = s.image.number) →
        ((∀ e, s.rc.entry? q.target = some e → 16777215 ≤ e.own) → s.ingressCause? q = some .noRoute)
        ∧ ((∃ e, s.rc.entry? q.target = some e ∧ e.own < 16777215) → s.ingressCause? q = none))) := by
  simp only [State.ingressCause?, hs, Bool.not_true, Bool.false_eq_true, if_false, if_neg h]
  refine ⟨fun hl => if_pos hl, fun h8 h1024 => ?_⟩
  rw [if_neg (by omega)]
  refine ⟨fun hk => ?_, fun hk ht => ?_, fun hk ht => ⟨fun he => ?_, fun ⟨e, he, hroute⟩ => ?_⟩⟩
  · rw [hk]
  · rw [hk]
    exact if_pos ht
  · rw [hk]
    refine (if_neg ht).trans ?_
    cases hentry : s.rc.entry? q.target with
    | none => rfl
    | some e => exact if_neg (Nat.not_lt.mpr (he e hentry))
  · rw [hk, he]
    exact (if_neg ht).trans (if_pos hroute)

end

/-! ### The refusal -/

/-- A refusal: counted, its reply due, and sent at once on an idle outward path (R134, R137). -/
theorem refuseIngress_eq (s : State) (c : IngressCause) :
    s.refuseIngress c = { s with snu := s.snu.count (.station .ingressRefused),
                                 lpc := { s.lpc with reply := some (.refused c),
                                                     replySending := s.lpc.delivering.isNone || s.lpc.replySending } } := by
  unfold State.refuseIngress State.replyDue State.sendReply
  cases hd : s.lpc.delivering <;> simp [State.count, hd]

/-- A request that is judged and refused (log 27: the draw it takes). -/
def State.ingressRefused (s : State) (c : IngressCause) : State :=
  { s with draws := s.draws + 1, snu := s.snu.count (.station .ingressRefused),
           lpc := { s.lpc with request := none, reply := some (.refused c),
                               replySending := s.lpc.delivering.isNone || s.lpc.replySending } }

/-- The request that bytes received are read as. -/
def State.requestOf (s : State) (bytes : List Byte) : IngressRequest :=
  .read (Config.missingRequestByte s.draws) bytes

section
variable {s : State} {q : IngressRequest}

theorem judgeIngress_of_some {c : IngressCause} (h : s.ingressCause? q = some c) :
    s.judgeIngress q = s.refuseIngress c := by
  rw [State.judgeIngress, h]

theorem judgeIngress_of_none (h : s.ingressCause? q = none) : s.judgeIngress q = s.acceptIngress q := by
  rw [State.judgeIngress, h]

/-- Test 6 of R136: a request that finds no free buffer. -/
theorem acceptIngress_of_full (h : Config.poolSize ≤ s.fe.pool.length) :
    s.acceptIngress q = s.refuseIngress .noBuffer := by
  rw [State.acceptIngress, Forwarding.grant, if_neg (Nat.not_lt.mpr h)]

end

/-- The station as it judges a request: no request is in progress, and a draw is taken (log 27). -/
def State.judging (s : State) : State := State.drew { s with lpc := { s.lpc with request := none } }

section
variable {s : State} {bytes : List Byte}

theorem exec_ingressCompletion_of_request (h : s.lpc.request = some false) :
    exec (.ingressCompletion bytes false) s = .next (s.judging.judgeIngress (s.requestOf bytes)) := by
  show execIngressCompletion bytes false s = _
  rw [execIngressCompletion, h]
  rfl

theorem exec_ingressCompletion_of_refused {c : IngressCause} (h : s.lpc.request = some false)
    (hc : s.ingressCause? (s.requestOf bytes) = some c) :
    exec (.ingressCompletion bytes false) s = .next (s.ingressRefused c) := by
  rw [exec_ingressCompletion_of_request h, judgeIngress_of_some (s := s.judging) hc]
  exact congrArg Host.Outcome.next (refuseIngress_eq _ c)

theorem exec_ingressCompletion_of_passed (h : s.lpc.request = some false)
    (hc : s.ingressCause? (s.requestOf bytes) = none) :
    exec (.ingressCompletion bytes false) s = .next (s.judging.acceptIngress (s.requestOf bytes)) := by
  rw [exec_ingressCompletion_of_request h, judgeIngress_of_none (s := s.judging) hc]

theorem exec_ingressCompletion_of_full (h : s.lpc.request = some false)
    (hc : s.ingressCause? (s.requestOf bytes) = none) (hfull : 256 ≤ s.fe.pool.length) :
    exec (.ingressCompletion bytes false) s = .next (s.ingressRefused .noBuffer) := by
  rw [exec_ingressCompletion_of_passed h hc, acceptIngress_of_full (s := s.judging) hfull]
  exact congrArg Host.Outcome.next (refuseIngress_eq _ .noBuffer)

end

/-! ### What a request is read as -/

/-- A request of fewer than two bytes has no payload (R178). -/
theorem requestOf_short_payload (s : State) {bytes : List Byte} (h : bytes.length < 2) :
    (s.requestOf bytes).payload = [] :=
  List.drop_eq_nil_of_le (by omega)

theorem requestOf_kind_aimed_iff (s : State) (b0 : Byte) (bytes : List Byte) :
    (s.requestOf (b0 :: bytes)).kind = .aimed ↔ b0.getLsbD 7 = true := by
  show (if b0.getLsbD 7 then Kind.aimed else Kind.flood) = Kind.aimed ↔ _
  split <;> simp_all

theorem Kind.ne_aimed_iff {k : Kind} : k ≠ .aimed ↔ k = .flood := by
  cases k <;> simp

theorem requestOf_target (s : State) (b0 b1 : Byte) (payload : List Byte) :
    (s.requestOf (b0 :: b1 :: payload)).target = b1.toNat % 64 := by
  simp [State.requestOf, IngressRequest.read, bytesAt_cons_succ]

/-- A request that passes tests 1 to 5 of R136. -/
theorem ingressCause?_eq_none {s : State} {b0 b1 : Byte} {payload : List Byte} (hs : s.inService = true)
    (hrelay : s.image.roleOf ≠ .relay) (hsource : b0.getLsbD 7 = true ∨ s.image.roleOf = .source)
    (h8 : 8 ≤ payload.length) (h1024 : payload.length ≤ 1024)
    (htarget : ¬b0.getLsbD 7 = true ∨ b1.toNat % 64 ≠ 0 ∧ b1.toNat % 64 ≠ s.image.number
      ∧ ∃ e, s.rc.entry? (b1.toNat % 64) = some e ∧ e.own < 16777215) :
    s.ingressCause? (s.requestOf (b0 :: b1 :: payload)) = none := by
  have hkind := requestOf_kind_aimed_iff s b0 (b1 :: payload)
  have hflood := (Kind.ne_aimed_iff (k := (s.requestOf (b0 :: b1 :: payload)).kind)).symm.trans (not_congr hkind)
  obtain ⟨hpassed, -, hroute⟩ := (ingressCause?_of_role_ok (q := s.requestOf (b0 :: b1 :: payload)) hs
    (by rw [hflood]; tauto)).2 h8 h1024
  rw [requestOf_target] at hroute
  by_cases ha : b0.getLsbD 7 = true
  · obtain ⟨h0, hn, he⟩ := htarget.resolve_left (not_not_intro ha)
    exact (hroute (hkind.mpr ha) (by omega)).2 he
  · exact hpassed (hflood.mpr ha)

/-! ### The obligation -/

/-- Settles O39: each request by the first test of R136 that it fails. -/
theorem ingressRequestsAreDiscardedOrRefused : Obligations.IngressRequestsAreDiscardedOrRefused := by
  refine ⟨fun s => ⟨fun h => ?_, fun h => ?_, fun bytes aborted => ⟨fun h => ?_, fun h => ?_⟩⟩,
    fun s bytes h hshort => ?_, fun c => by cases c <;> rfl, fun s b0 b1 payload h => ?_⟩
  · show execIngressStart s = _
    rw [execIngressStart, h]
  · obtain ⟨d, hd⟩ := Option.ne_none_iff_exists'.mp h
    show execIngressStart s = _
    rw [execIngressStart, hd]
  · show execIngressCompletion bytes aborted s = _
    rw [execIngressCompletion, h]
  · show execIngressCompletion bytes aborted s = _
    rcases h with hd | ⟨hne, rfl⟩
    · rw [execIngressCompletion, hd]
      rfl
    · obtain ⟨d, hd⟩ := Option.ne_none_iff_exists'.mp hne
      rw [execIngressCompletion, hd, ← Bool.or_true d]
      exact congrArg Host.Outcome.next (if_pos (by simp))
  · have hp : (s.requestOf bytes).payload.length < 8 := by simp [requestOf_short_payload s hshort]
    have hrefused {c : IngressCause} := exec_ingressCompletion_of_refused (c := c) (bytes := bytes) h
    refine ⟨fun hs => hrefused (ingressCause?_of_config hs), fun hs => ⟨fun hr => ?_, fun hr => ?_, fun hr => ?_⟩⟩
    · exact hrefused (ingressCause?_of_role hs (.inl hr))
    · exact hrefused ((ingressCause?_of_role_ok hs (by simp [hr])).1 (.inl hp))
    · have haimed (hk : (s.requestOf bytes).kind = .aimed) :=
        hrefused ((ingressCause?_of_role_ok hs (by simp [hr, hk])).1 (.inl hp))
      have hflood (hk : (s.requestOf bytes).kind = .flood) :=
        hrefused (ingressCause?_of_role hs (.inr ⟨hk, by simp [hr]⟩))
      refine ⟨fun b hb => ⟨fun hk => haimed ?_, fun hk => hflood ?_⟩, fun _ => ?_⟩
      · rw [hb]
        exact (requestOf_kind_aimed_iff s b []).mpr hk
      · rw [hb, ← Kind.ne_aimed_iff, Ne, requestOf_kind_aimed_iff]
        exact Bool.eq_false_iff.mp hk
      · exact (eq_or_ne (s.requestOf bytes).kind .aimed).imp haimed (fun hk => hflood (Kind.ne_aimed_iff.mp hk))
  · have hkind := requestOf_kind_aimed_iff s b0 (b1 :: payload)
    have hflood := (Kind.ne_aimed_iff (k := (s.requestOf (b0 :: b1 :: payload)).kind)).symm.trans (not_congr hkind)
    have htarget := requestOf_target s b0 b1 payload
    have hrefused {c : IngressCause} := exec_ingressCompletion_of_refused (c := c) (bytes := b0 :: b1 :: payload) h
    refine ⟨fun hs => hrefused (ingressCause?_of_config hs), fun hs => ⟨fun hr => ?_, fun hrelay hsource => ?_⟩⟩
    · exact hrefused (ingressCause?_of_role hs (by rwa [hflood]))
    · obtain ⟨hlength, htargets⟩ := ingressCause?_of_role_ok (q := s.requestOf (b0 :: b1 :: payload)) hs
        (by rw [hflood]; tauto)
      refine ⟨fun hl => hrefused (hlength hl), fun h8 h1024 => ?_⟩
      obtain ⟨hpassed, hbad, hroute⟩ := htargets h8 h1024
      rw [htarget] at hbad hroute
      refine ⟨fun ha ht => hrefused (hbad (hkind.mpr ha) (by omega)), fun ha h0 hn hnone => ?_, fun hall hfull => ?_⟩
      · exact hrefused ((hroute (hkind.mpr ha) (by omega)).1 hnone)
      · exact exec_ingressCompletion_of_full h (ingressCause?_eq_none hs hrelay hsource h8 h1024 hall) hfull

end Sys2Proof.Machine


/-! Ingress requests (chapter 8, section 8.3; chapter 6, sections 6.1 and 6.4): the accepted ones. -/

namespace Sys2Proof.Machine

/-! ### The reply -/

theorem replyFields_accepted (n : BitVec 16) (t : Time) (k : Nat) :
    replyFields (Reply.accepted n t k).bytes (.accepted n t k) := by
  have hsequence := ofBytes_beBytes_toNat n (n := 2) rfl
  refine ⟨by simp [Reply.bytes], by simp [Reply.bytes], ?_, ?_, fun h => ?_⟩
  · simp [Reply.bytes, bytesAt_cons_succ, hsequence]
  · simp [Reply.bytes, bytesAt_cons_succ, bytesAt_append_right]
  · simpa [Reply.bytes, bytesAt_cons_succ, bytesAt_append_right] using h

/-! ### The number of copies -/

theorem placeCopies_placed_le (i : Nat) (u : Urgency) : ∀ (ports : List Port) (s : State),
    (placeCopies i u ports s).2 ≤ ports.length
  | [], _ => Nat.le_refl 0
  | p :: ps, s => by
    have hrest := placeCopies_placed_le i u ps (s.place i u p).1
    simp only [placeCopies, List.length_cons]
    split <;> omega

theorem egressCopies_placed_le (s : State) (b : Buffer) (ports : List Port) :
    (s.egressCopies b ports).2 ≤ ports.length := by
  unfold State.egressCopies
  split
  · exact Nat.zero_le _
  · exact placeCopies_placed_le _ _ _ _

theorem length_floodPorts_le (s : State) (a : Origin) (o : Nat) : (s.floodPorts a o).length ≤ 5 :=
  List.length_filter_le _ _

theorem length_ascendingPair_le (c : Port) (x : Option Port) : (ascendingPair c x).length ≤ 2 := by
  unfold ascendingPair
  cases x with
  | none => exact Nat.le_succ 1
  | some p => dsimp only; split <;> exact Nat.le_refl 2

/-- No message has more egress copies than the station has ports. -/
theorem makeCopies_placed_le (s : State) (b : Buffer) : (s.makeCopies b).2 ≤ 5 := by
  cases hk : b.header.kind with
  | flood =>
    have hflood := (egressCopies_placed_le s b _).trans (length_floodPorts_le s b.arrival b.header.origin)
    rw [makeCopies_flood hk]
    split <;> exact hflood
  | aimed =>
    simp only [State.makeCopies, hk]
    cases s.aimedChoice b.arrival b.header.target b.header.urgency with
    | localPort => exact Nat.zero_le 5
    | noRoute => exact Nat.zero_le 5
    | egress c x =>
      have hpair := (egressCopies_placed_le s b _).trans (length_ascendingPair_le c x)
      exact hpair.trans (by decide)

/-- A FLOOD of this station's own is not owed to its local port (R121). -/
theorem makeCopies_flood_of_ingress {s : State} {b : Buffer} (hk : b.header.kind = .flood) (ha : b.arrival = .loc) :
    s.makeCopies b = s.egressCopies b (s.floodPorts .loc b.header.origin) := by
  rw [makeCopies_flood hk, ha]
  exact if_neg (by simp [State.floodOwed_iff])

/-! ### The acceptance -/

/-- The station as it makes the copies of an accepted request: the buffer granted, the sequence marked and advanced. -/
def State.accepting (s : State) (fe : Forwarding) : State :=
  { s with draws := s.draws + 1, fe := fe, af := s.af.ingress s.lpc.nextSequence s.now,
           lpc := { s.lpc with request := none, nextSequence := s.lpc.nextSequence + 1 } }

/-- The buffer that an accepted request is granted. -/
def State.ingressBuffer (s : State) (q : IngressRequest) (i : Nat) : Buffer :=
  ⟨i, s.ingressHeader q, q.payload, s.tu.stamp, .loc, Origin.loc.usedPorts, 1⟩

/-- The header that a request's bytes give its message (R138, R178). -/
theorem ingressHeader_requestOf (s : State) (b0 b1 : Byte) (payload : List Byte) :
    s.ingressHeader (s.requestOf (b0 :: b1 :: payload))
      = { kind := if b0.getLsbD 7 then .aimed else .flood, origin := s.image.number, startNumber := s.image.startNumber,
          sequence := s.lpc.nextSequence, target := if b0.getLsbD 7 then b1.toNat % 64 else 0,
          urgency := .ofBits b0.toNat, budget := s.image.initBudget.toNat, hops := 0, originStamp := s.tu.st,
          routeDelay := 0, inexact := false, length := payload.length } := by
  have hkind : (s.requestOf (b0 :: b1 :: payload)).kind = if b0.getLsbD 7 then .aimed else .flood := rfl
  rw [State.ingressHeader, requestOf_target, hkind]
  cases b0.getLsbD 7 <;> rfl

theorem exec_ingressCompletion_of_accepted {s : State} {bytes : List Byte} {i : Nat} {fe : Forwarding}
    (h : s.lpc.request = some false) (hc : s.ingressCause? (s.requestOf bytes) = none)
    (hg : s.fe.grant s.tu.stamp .loc (s.ingressHeader (s.requestOf bytes)) (s.requestOf bytes).payload = some (i, fe))
    (hb : fe.buffer? i = some (s.ingressBuffer (s.requestOf bytes) i)) :
    exec (.ingressCompletion bytes false) s
      = .next ((((((s.accepting fe).makeCopies (s.ingressBuffer (s.requestOf bytes) i)).1.release i).count
          (.station .ingressOk)).replyDue (.accepted s.lpc.nextSequence s.tu.st
            ((s.accepting fe).makeCopies (s.ingressBuffer (s.requestOf bytes) i)).2))) := by
  have hcopies : (s.accepting fe).copiesOf i
      = (s.accepting fe).makeCopies (s.ingressBuffer (s.requestOf bytes) i) := by
    rw [State.copiesOf, show (s.accepting fe).fe.buffer? i = _ from hb]
  rw [exec_ingressCompletion_of_passed h hc, ← hcopies, State.acceptIngress,
    show s.judging.fe.grant s.judging.tu.stamp .loc (s.judging.ingressHeader (s.requestOf bytes)) _ = _ from hg]
  rfl

/-- Settles O40: a grant from a pool that is not full, and the acceptance over it. -/
theorem ingressAcceptedBecomesAMessage : Obligations.IngressAcceptedBecomesAMessage := by
  refine ⟨replyFields_accepted, fun s b0 b1 payload h hs hrelay hsource h8 h1024 htarget hroom hwf => ?_⟩
  have hpassed := ingressCause?_eq_none hs hrelay hsource h8 h1024
    ((em (b0.getLsbD 7 = true)).symm.imp_right htarget)
  have hspec := Forwarding.grant_spec hwf s.tu.stamp .loc
    (s.ingressHeader (s.requestOf (b0 :: b1 :: payload))) payload
  obtain ⟨⟨i, fe⟩, hg⟩ := Option.ne_none_iff_exists'.mp (mt hspec.1.mp (Nat.not_le.mpr hroom))
  obtain ⟨hfree, hnew, hother⟩ := Forwarding.grant_buffer? hwf hg
  obtain ⟨-, -, -, hqueues, -⟩ := hspec.2 i fe hg
  refine ⟨i, fe, s.ingressBuffer (s.requestOf (b0 :: b1 :: payload)) i, s.af.ingress s.lpc.nextSequence s.now,
    (s.accepting fe).makeCopies (s.ingressBuffer (s.requestOf (b0 :: b1 :: payload)) i),
    ⟨hfree, hnew, hqueues, hother⟩, ?_, rfl, fun k hk => getLsbD_shiftWindow _ _ hk, ⟨rfl, fun ha => ?_⟩,
    exec_ingressCompletion_of_accepted h hpassed hg hnew, makeCopies_placed_le _ _⟩
  · exact congrArg (fun h => (⟨i, h, payload, s.tu.stamp, .loc, Origin.loc.usedPorts, 1⟩ : Buffer))
      (ingressHeader_requestOf s b0 b1 payload)
  · refine makeCopies_flood_of_ingress ?_ rfl
    rw [← Kind.ne_aimed_iff]
    exact mt (requestOf_kind_aimed_iff s b0 _).mp (Bool.eq_false_iff.mp ha)

end Sys2Proof.Machine


/-! START (chapter 10, sections 10.5 and 10.6): the tests of the image, and what a sound one starts. -/

namespace Sys2Proof.Machine

/-! ### The tests of the items -/

theorem Image.itemValid_profile (g : Image) {i : Nat} (h : 9 ≤ i ∧ i ≤ 15) :
    g.itemValid i = (g.profiles.get ⟨i - 9, by omega⟩).valid := by
  obtain ⟨h1, h2⟩ := h
  interval_cases i <;> rfl

theorem profilesServe_iff (g : Image) : g.profilesServe = true ↔
    ((∃ p : Port, p ≠ .p4 ∧ g.portEnable.getLsbD p.toNat = true) → ∃ m : Fin 8, (g.profiles.get m).rate ≠ 0) := by
  have hradio : g.portEnable &&& 0x0F#8 = 0 ↔ ¬∃ p : Port, p ≠ .p4 ∧ g.portEnable.getLsbD p.toNat = true := by
    constructor
    · rintro h ⟨p, hp, hbit⟩
      have hzero : false = (true && (15#8).getLsbD p.toNat) := by
        rw [← hbit, ← BitVec.getLsbD_and, h]
        exact BitVec.getLsbD_zero.symm
      have hmask : (15#8).getLsbD p.toNat = true := by cases p <;> simp_all [Port.toNat]
      simp [hmask] at hzero
    · intro h
      push Not at h
      have h0 := h .p0 (by decide)
      have h1 := h .p1 (by decide)
      have h2 := h .p2 (by decide)
      have h3 := h .p3 (by decide)
      refine BitVec.eq_of_getLsbD_eq fun i hi => ?_
      interval_cases i <;> simp_all [Port.toNat]
  have hrate : g.profiles.toList.any (fun f => decide (f.rate ≠ 0)) = true ↔ ∃ m : Fin 8, (g.profiles.get m).rate ≠ 0 := by
    simp only [List.any_eq_true, decide_eq_true_iff]
    constructor
    · rintro ⟨f, hf, hne⟩
      obtain ⟨i, hi, rfl⟩ := Vector.mem_iff_getElem.mp (Vector.mem_toList_iff.mp hf)
      exact ⟨⟨i, hi⟩, hne⟩
    · rintro ⟨m, hne⟩
      exact ⟨_, Vector.mem_toList_iff.mpr (Vector.getElem_mem m.isLt), hne⟩
  rw [Image.profilesServe, Bool.or_eq_true, decide_eq_true_iff, hradio, hrate, imp_iff_not_or]

theorem Profile.valid_iff (f : Profile) : f.valid = true ↔
    (-240 ≤ f.threshold.toInt ∧ f.threshold.toInt ≤ 0) ∧ (f.rate = 0 ∨ 10 ≤ f.rate.toNat ∧ f.rate.toNat ≤ 2000) := by
  simp [Profile.valid]

theorem decide_and_iff {p q : Prop} [Decidable p] [Decidable q] : (decide p && decide q) = true ↔ p ∧ q := by simp

theorem decide_and_and_iff {p q r : Prop} [Decidable p] [Decidable q] [Decidable r] :
    (decide p && decide q && decide r) = true ↔ p ∧ q ∧ r := by simp [and_assoc]

theorem decide_le_iff {x n : Nat} : decide (x ≤ n) = true ↔ 0 ≤ x ∧ x ≤ n := by simp

theorem decide_lt_iff {x n : Nat} : decide (x < n + 1) = true ↔ 0 ≤ x ∧ x ≤ n := by simp

/-- The test of an entry of the profile table; the last one's is that of the whole table too (R170). -/
theorem itemValid_profile_iff (g : Image) (n : Fin 8) : g.itemValid (9 + n.val) = true ↔
    (-240 ≤ (g.profiles.get n).threshold.toInt ∧ (g.profiles.get n).threshold.toInt ≤ 0)
    ∧ ((g.profiles.get n).rate = 0 ∨ 10 ≤ (g.profiles.get n).rate.toNat ∧ (g.profiles.get n).rate.toNat ≤ 2000)
    ∧ (n = 7 → (∃ p : Port, p ≠ .p4 ∧ g.portEnable.getLsbD p.toNat = true) →
        ∃ m : Fin 8, (g.profiles.get m).rate ≠ 0) := by
  by_cases hn : n = 7
  · subst hn
    refine (Bool.and_eq_true_iff (x := (g.profiles.get 7).valid)).trans ?_
    rw [Profile.valid_iff, profilesServe_iff, and_assoc]
    simp
  · rw [Image.itemValid_profile g (by omega), Profile.valid_iff]
    simp [hn]

theorem itemValid_hysteresis_iff (g : Image) :
    g.itemValid 22 = true ↔ 1 ≤ g.hysteresis.toNat ∧ g.hysteresis.toNat ≤ 40 := by
  have hlevel : g.hysteresisLevel = (g.hysteresis.toNat : Int) := rfl
  exact decide_and_iff.trans (by omega)

theorem itemValid_noticeOrder_iff (g : Image) :
    g.itemValid 35 = true ↔ g.noticeOrder.toNat < 64 ∧ g.noticeOrder.toNat % 8 ≤ 5 := by
  refine decide_and_iff.trans (and_congr_right fun _ => ?_)
  rw [BitVec.toNat_and]
  exact iff_of_eq (congrArg (· ≤ 5) (Nat.and_two_pow_sub_one_eq_mod _ 3))

theorem mem_itemNumbers {i : Nat} : i ∈ itemNumbers ↔ 1 ≤ i ∧ i ≤ 35 := by
  have hrange : itemNumbers = List.range' 1 35 := rfl
  rw [hrange, List.mem_range'_1]
  omega

theorem firstFailing_eq_none_iff (g : Image) :
    g.firstFailing = none ↔ ∀ i, 1 ≤ i → i ≤ 35 → g.itemValid i = true := by
  simp [Image.firstFailing, List.find?_eq_none, mem_itemNumbers]

theorem firstFailing_eq_some {g : Image} {i : Nat} (h1 : 1 ≤ i) (h35 : i ≤ 35) (hi : g.itemValid i = false)
    (hlow : ∀ j, 1 ≤ j → j < i → g.itemValid j = true) : g.firstFailing = some i := by
  have hrange : itemNumbers = List.range' 1 35 := rfl
  rw [Image.firstFailing, hrange, List.find?_range'_eq_some]
  simp only [List.mem_range'_1, hi, Bool.not_not, Bool.not_false, true_and]
  exact ⟨by omega, fun j h1 hj => hlow j h1 hj⟩

/-! ### The HAILs that START and REJOIN make due -/

/-- On a port that queues nothing, selection sends a due HAIL on an idle line and does nothing else. -/
theorem select_of_empty {s : State} {p : Port} (hq : s.queue p = .empty) :
    s.select p = if s.tx p = .idle ∧ (s.link p).hailDue = true then s.departHail p else s := by
  by_cases hidle : s.tx p = .idle
  · by_cases hdue : (s.link p).hailDue = true
    · rw [if_pos ⟨hidle, hdue⟩, select_of_hailDue hidle hdue]
    · rw [if_neg (fun h => hdue h.2), select_of_nothing_waiting (Bool.eq_false_iff.mpr hdue) (by rw [hq])]
  · rw [if_neg (fun h => hidle h.1), select_of_busy hidle]

/-- What the selections of different ports that queue nothing do: each sends its due HAIL on an idle line. -/
structure State.HailsSent (s t : State) (ps : List Port) : Prop where
  rest : t = { s with li := t.li, lm := t.lm }
  rx : ∀ p, t.rx p = s.rx p
  other : ∀ p, ¬(p ∈ ps ∧ s.tx p = .idle ∧ (s.link p).hailDue = true) → t.tx p = s.tx p ∧ t.link p = s.link p
  sent : ∀ p ∈ ps, s.tx p = .idle → (s.link p).hailDue = true →
    t.tx p = .hail (s.buildHail p ((s.link p).lastSent + 1))
    ∧ t.link p = { s.link p with hailDue := false, lastSent := (s.link p).lastSent + 1 }

theorem departHail_frame (s : State) (p : Port) :
    s.departHail p = { s with li := (s.departHail p).li, lm := (s.departHail p).lm } := rfl

theorem departHail_rx (s : State) (p q : Port) : (s.departHail p).rx q = s.rx q :=
  State.setTx_rx s p _ q

theorem departHail_tx_self (s : State) (p : Port) :
    (s.departHail p).tx p = .hail (s.buildHail p ((s.link p).lastSent + 1)) :=
  State.setTx_tx_self s p _

theorem departHail_link_self (s : State) (p : Port) :
    (s.departHail p).link p = { s.link p with hailDue := false, lastSent := (s.link p).lastSent + 1 } :=
  State.setLink_link_self _ p _

theorem departHail_tx_of_ne (s : State) {p q : Port} (h : q ≠ p) : (s.departHail p).tx q = s.tx q :=
  State.setTx_tx_of_ne s _ h

theorem departHail_link_of_ne (s : State) {p q : Port} (h : q ≠ p) : (s.departHail p).link q = s.link q :=
  State.setLink_link_of_ne _ _ h

/-- A HAIL is built from its own port's record, the Cost Table, the image and the clock. -/
theorem buildHail_congr {s t : State} {p : Port} (hlink : t.link p = s.link p) (hrc : t.rc = s.rc)
    (himage : t.image = s.image) (hnow : t.now = s.now) (n : Byte) : t.buildHail p n = s.buildHail p n := by
  simp only [State.buildHail, hlink, hrc, himage, hnow]

theorem State.HailsSent.cons {s t : State} {p : Port} {ps : List Port} (hp : p ∉ ps)
    (hidle : s.tx p = .idle) (hdue : (s.link p).hailDue = true) (h : (s.departHail p).HailsSent t ps) :
    s.HailsSent t (p :: ps) := by
  obtain ⟨htx, hlink⟩ := h.other p (fun h => hp h.1)
  refine ⟨h.rest.trans (by rw [departHail_frame]), fun q => (h.rx q).trans (departHail_rx s p q), fun q hq => ?_,
    fun q hq hidleq hdueq => ?_⟩
  · have hne : q ≠ p := by
      rintro rfl
      exact hq ⟨List.mem_cons_self, hidle, hdue⟩
    obtain ⟨htxq, hlinkq⟩ := h.other q (by
      rw [departHail_tx_of_ne s hne, departHail_link_of_ne s hne]
      exact fun h => hq ⟨List.mem_cons_of_mem p h.1, h.2⟩)
    exact ⟨htxq.trans (departHail_tx_of_ne s hne), hlinkq.trans (departHail_link_of_ne s hne)⟩
  · by_cases hne : q = p
    · subst hne
      exact ⟨htx.trans (departHail_tx_self s q), hlink.trans (departHail_link_self s q)⟩
    · have hkeep := departHail_link_of_ne s hne
      have hsent := h.sent q ((List.mem_cons.mp hq).resolve_left hne) ((departHail_tx_of_ne s hne).trans hidleq)
        (by rw [hkeep]; exact hdueq)
      rwa [buildHail_congr hkeep rfl rfl rfl, hkeep] at hsent

theorem hailsSent_foldl_select : ∀ (ps : List Port) (s : State), ps.Nodup → (∀ p, s.queue p = .empty) →
    s.HailsSent (ps.foldl State.select s) ps
  | [], s, _, _ => ⟨rfl, fun _ => rfl, fun _ _ => ⟨rfl, rfl⟩, fun _ h => absurd h List.not_mem_nil⟩
  | p :: ps, s, hnodup, hq => by
    obtain ⟨hp, hps⟩ := List.nodup_cons.mp hnodup
    rw [List.foldl_cons, select_of_empty (hq p)]
    by_cases h : s.tx p = .idle ∧ (s.link p).hailDue = true
    · rw [if_pos h]
      exact (hailsSent_foldl_select ps (s.departHail p) hps hq).cons hp h.1 h.2
    · rw [if_neg h]
      have hrest := hailsSent_foldl_select ps s hps hq
      refine ⟨hrest.rest, hrest.rx, fun q hn => hrest.other q (fun hq => hn ⟨List.mem_cons_of_mem p hq.1, hq.2⟩),
        fun q hq hidle hdue => hrest.sent q ((List.mem_cons.mp hq).resolve_left ?_) hidle hdue⟩
      rintro rfl
      exact h ⟨hidle, hdue⟩

/-- Every port that queues nothing sends its due HAIL on an idle line. -/
theorem hailsSent_selectAll {s : State} (hq : ∀ p, s.queue p = .empty) : s.HailsSent s.selectAll Port.all :=
  hailsSent_foldl_select Port.all s (by decide) hq

/-! ### What START starts -/

theorem Image.isEnd_iff (g : Image) : g.isEnd = true ↔ g.roleOf ≠ .relay := decide_eq_true_iff

theorem start_entries {t : RouteComputer} (h : t.entries = []) (g : Image) :
    (t.start g).entries = if g.roleOf = .relay then [] else [.self g.number] := by
  rw [RouteComputer.start]
  by_cases hr : g.roleOf = .relay
  · rw [if_neg (by simp [Image.isEnd_iff, hr]), if_pos hr, h]
  · rw [if_pos ((Image.isEnd_iff g).mpr hr), if_neg hr, h]
    rfl

theorem start_full (t : RouteComputer) (g : Image) : (t.start g).full = t.full := by
  unfold RouteComputer.start
  split <;> rfl

/-- The own entry alone is advertised at cost 0 on every port (R95). -/
theorem advertise_own {t : RouteComputer} {g : Image}
    (h : t.entries = if g.roleOf = .relay then [] else [.self g.number]) (p : Port) :
    t.advertise g p = if g.roleOf = .relay then [] else [(g.number, 0)] := by
  rw [RouteComputer.advertise, h]
  by_cases hr : g.roleOf = .relay
  · rw [if_pos hr, if_pos hr]
    rfl
  · have hown : CostEntry.isOwn (.self g.number) g = true :=
      (CostEntry.isOwn_iff _ _).mpr ⟨(Image.isEnd_iff g).mpr hr, rfl⟩
    rw [if_neg hr, if_neg hr, List.map_singleton, if_pos hown]
    rfl

theorem startCommand_of_service {s : State} (h : s.inService = true) :
    s.startCommand = s.setResult ⟨0, 1⟩ .refusedState none := if_pos h

theorem startCommand_of_failing {s : State} {i : Nat} (hs : s.inService = false) (hg : s.image.firstFailing = some i) :
    s.startCommand = s.setResult ⟨0, 1⟩ .configInvalid (some i) := by
  rw [State.startCommand, if_neg (Bool.eq_false_iff.mp hs), hg]
  rfl

theorem startCommand_of_sound {s : State} (hs : s.inService = false) (hg : s.image.firstFailing = none) :
    s.startCommand = (s.startBlocks.accept codeStart).selectAll := by
  rw [State.startCommand, if_neg (Bool.eq_false_iff.mp hs), hg]

theorem exec_start_of_addressed {s : State} {dev : BitVec 2} (h : s.addressed dev) :
    exec (.start dev) s = .next s.startCommand := by
  show execStart dev s = _
  rw [execStart, State.transfer_of_addressed h]

/-- The blocks as START leaves them, before the first HAILs depart (log 10). -/
def State.started (s : State) : State := s.startBlocks.accept codeStart

/-- The first HAIL of an enabled port. -/
theorem started_buildHail {s : State} (hentries : s.rc.entries = []) {p : Port} (hlink : s.link p = powerOnRecord p)
    (henabled : s.image.enables p = true) :
    s.started.buildHail p 0
      = { sender := s.image.number, senderPort := p, senderRole := s.image.roleOf, sequence := 0, departure := s.now,
          farMargin := if p = .p4 then 127 else -128, senderState := .seeking, echo := none,
          vector := if s.image.roleOf = .relay then [] else [(s.image.number, 0)] } := by
  have hstart : s.started.link p = (powerOnRecord p).start s.image s.now := by
    rw [← hlink]
    exact (startBlocks_link s p).trans (if_pos henabled)
  have hvector := advertise_own (start_entries hentries s.image) p
  rw [State.buildHail, hstart, show s.started.rc = s.rc.start s.image from rfl,
    show s.started.image = s.image from rfl, hvector]
  cases p <;> rfl

/-- Settles O42: the tests item by item; START by the first that fails, and a sound image's start port by port. -/
theorem startTestsTheImageAndStartsEveryBlock : Obligations.StartTestsTheImageAndStartsEveryBlock := by
  refine ⟨fun g => ⟨decide_and_iff, decide_le_iff, rfl, decide_le_iff, decide_lt_iff, decide_lt_iff, decide_le_iff,
      decide_and_iff, itemValid_profile_iff g, decide_and_and_iff, decide_and_iff, decide_and_iff, decide_le_iff,
      decide_and_iff, itemValid_hysteresis_iff g, decide_and_and_iff, decide_and_iff, decide_and_iff, decide_and_iff,
      decide_and_iff, decide_le_iff, decide_le_iff, decide_le_iff, decide_and_iff, decide_and_iff, decide_and_iff,
      decide_lt_iff, itemValid_noticeOrder_iff g⟩, fun dev s haddr => ⟨fun hs => ?_, fun i hs h1 h35 hi hlow => ?_,
    fun hs hvalid hdormant hquiet => ⟨s.started.selectAll, ?_, ?_⟩⟩⟩
  · rw [exec_start_of_addressed haddr, startCommand_of_service hs]
  · rw [exec_start_of_addressed haddr, startCommand_of_failing hs (firstFailing_eq_some h1 h35 hi hlow)]
  · rw [exec_start_of_addressed haddr, startCommand_of_sound hs ((firstFailing_eq_none_iff _).mpr hvalid)]
    rfl
  obtain ⟨hlines, -, -, -, hentries, -⟩ := hquiet hs
  have hsent := hailsSent_selectAll (s := s.started) fun p => (hlines p).2
  have hrc : s.started.selectAll.rc = s.rc.start s.image := by rw [hsent.rest]; rfl
  refine ⟨?_, hrc ▸ start_full s.rc s.image, hrc ▸ start_entries hentries s.image, fun p => ?_⟩
  · refine hsent.rest.trans ?_
    rw [hrc]
    rfl
  obtain ⟨hrx, hlink⟩ := (hdormant p).1 ((hdormant p).2 hs)
  refine ⟨(hsent.rx p).trans hrx, fun hoff => ?_, fun hon => ?_⟩
  · have hstarted : s.started.link p = powerOnRecord p := by
      rw [← hlink]
      exact (startBlocks_link s p).trans (if_neg (Bool.eq_false_iff.mp hoff))
    obtain ⟨htx, hkept⟩ := hsent.other p fun h => by
      rw [hstarted] at h
      exact Bool.false_ne_true h.2.2
    exact ⟨hkept.trans hstarted, htx.trans (hlines p).1⟩
  · have hstarted : s.started.link p = (powerOnRecord p).start s.image s.now := by
      rw [← hlink]
      exact (startBlocks_link s p).trans (if_pos hon)
    obtain ⟨htx, hdeparted⟩ := hsent.sent p (by cases p <;> decide) (hlines p).1 (by rw [hstarted]; rfl)
    have hnumber : ((powerOnRecord p).start s.image s.now).lastSent + 1 = 0 := show (255 : Byte) + 1 = 0 by decide
    rw [hstarted, hnumber] at htx hdeparted
    exact ⟨hdeparted, htx.trans (congrArg Transmission.hail (started_buildHail hentries hlink hon))⟩

end Sys2Proof.Machine


/-! REJOIN (chapter 10, section 10.7; chapter 1, section 1.8; chapter 4, section 4.8; chapter 7, section 7.8). -/

namespace Sys2Proof.Machine

/-! ### What REJOIN does to the blocks -/

theorem LocalPort.cutDelivery_eq (l : LocalPort) :
    l.cutDelivery = { l with delivering := none,
                             outwardEnd := if l.delivering.isSome = true then some .abort else l.outwardEnd } := by
  unfold LocalPort.cutDelivery
  cases h : l.delivering
  · rw [if_neg (by simp), if_neg (by simp), ← h]
  · rw [if_pos (by simp), if_pos (by simp)]

theorem rejoinBlocks_eq (s : State) :
    s.rejoinBlocks = { s with
      li := s.rejoinBlocks.li, tu := { s.tu.disarm with runMark := false }, lm := s.rejoinBlocks.lm,
      rc := s.rc.rejoin s.image, af := { s.af with ring := [] }, fe := s.rejoinBlocks.fe,
      lpc := { s.lpc with queue := [], delivering := none,
                          outwardEnd := if s.lpc.delivering.isSome = true then some .abort else s.lpc.outwardEnd },
      snu := { s.snu with notices := .empty } } := by
  have hlpc : s.rejoinBlocks.lpc = LocalPort.cutDelivery { s.lpc with queue := [] } := by
    show s.emptyQueues.lpc.cutDelivery = _
    rw [emptyQueues_frame]
  have hframe : s.rejoinBlocks = { s with
      li := s.rejoinBlocks.li, tu := { s.tu.disarm with runMark := false }, lm := s.rejoinBlocks.lm,
      rc := s.rejoinBlocks.rc, af := { s.af with ring := [] }, fe := s.rejoinBlocks.fe, lpc := s.rejoinBlocks.lpc,
      snu := { s.snu with notices := .empty } } := by
    unfold State.rejoinBlocks
    rw [emptyQueues_frame s]
  exact hframe.trans (by rw [hlpc, LocalPort.cutDelivery_eq, rejoinBlocks_rc])

/-- After REJOIN the table is nothing or the own entry, with nothing heard, once for each time it was held (R85). -/
theorem rejoin_entries (t : RouteComputer) (g : Image) :
    (t.rejoin g).entries = List.replicate (if g.isEnd = true then
      (t.entries.filter (fun e => decide (e.destination = g.number))).length else 0) (.self g.number) := by
  have hown (e : CostEntry) (he : e ∈ t.entries.filter (fun e => e.isOwn g)) : e.destination = g.number :=
    ((CostEntry.isOwn_iff e g).mp (List.mem_filter.mp he).2).2
  have hconst : (t.rejoin g).entries
      = List.replicate (t.entries.filter (fun e => e.isOwn g)).length (.self g.number) :=
    List.eq_replicate_iff.mpr ⟨List.length_map _, fun b hb => by
      obtain ⟨e, he, rfl⟩ := List.mem_map.mp hb
      rw [hown e he]⟩
  rw [hconst]
  by_cases hend : g.isEnd = true
  · rw [if_pos hend]
    simp only [CostEntry.isOwn, hend, Bool.true_and]
  · rw [if_neg hend, List.filter_eq_nil_iff.mpr (fun e _ h => hend ((CostEntry.isOwn_iff e g).mp h).1)]
    rfl

theorem isOwn_of_mem_rejoin {t : RouteComputer} {g : Image} {e : CostEntry} (h : e ∈ (t.rejoin g).entries) :
    e.isOwn g = true ∧ e = .self g.number := by
  rw [rejoin_entries, List.mem_replicate] at h
  obtain ⟨hn, rfl⟩ := h
  have hend : g.isEnd = true := by
    by_contra hend
    exact hn (if_neg hend)
  exact ⟨(CostEntry.isOwn_iff _ _).mpr ⟨hend, rfl⟩, rfl⟩

/-- A recompute of a table that holds what it would compute changes and raises nothing. -/
theorem recompute_of_settled {s : State} (h : ∀ e ∈ s.rc.entries, e.recompute s.image s.lm = e) : s.recompute = s := by
  have hrc : s.rc.recompute s.image s.lm = s.rc := by
    rw [RouteComputer.recompute, List.map_congr_left h, List.map_id']
  have hrecompute : s.recompute = { s with
      rc := s.rc.recompute s.image s.lm,
      snu := { s.snu with notices := s.rc.recomputeNotices s.image s.lm s.snu.notices } } := rfl
  rw [hrecompute, hrc, recomputeNotices_of_settled h]

theorem sendReply_of_idle {s : State} (h : s.lpc.delivering = none) :
    s.sendReply = { s with lpc := { s.lpc with replySending := s.lpc.reply.isSome || s.lpc.replySending } } := by
  by_cases hr : s.lpc.reply = none
  · rw [sendReply_of_none hr, hr]
    rfl
  · rw [sendReply_of_some hr h, Option.isSome_iff_ne_none.mpr hr, Bool.true_or]

/-- The station as REJOIN leaves it, before the HAILs depart (log 10). -/
def State.rejoining (s : State) : State := ((s.rejoinBlocks.recompute.accept codeRejoin).sendReply)

theorem rejoining_eq (s : State) :
    s.rejoining = { s with
      li := s.rejoinBlocks.li, lm := s.rejoinBlocks.lm, rc := s.rc.rejoin s.image, fe := s.rejoinBlocks.fe,
      tu := { s.tu with runMark := false, schedule := { s.tu.schedule with armed := false } },
      af := { s.af with ring := [] },
      lpc := { s.lpc with
        queue := [], delivering := none, replySending := s.lpc.reply.isSome || s.lpc.replySending,
        outwardEnd := if s.lpc.delivering.isSome = true then some .abort else s.lpc.outwardEnd },
      slc := { s.slc with last := ⟨some ⟨0, 2⟩, .accepted, none⟩ },
      snu := { s.snu with notices := .empty } } := by
  have hsettled : s.rejoinBlocks.recompute = s.rejoinBlocks := recompute_of_settled fun e he => by
    rw [rejoinBlocks_rc] at he
    have himage : s.rejoinBlocks.image = s.image := congrArg ServiceLine.image (rejoinBlocks_slc s)
    obtain ⟨hown, heq⟩ := isOwn_of_mem_rejoin he
    rw [himage, CostEntry.recompute_of_own _ hown, heq]
    rfl
  have hidle : (s.rejoinBlocks.accept codeRejoin).lpc.delivering = none := by
    show s.rejoinBlocks.lpc.delivering = none
    rw [rejoinBlocks_eq]
  rw [State.rejoining, hsettled, sendReply_of_idle hidle, rejoinBlocks_eq]
  rfl

theorem exec_rejoin_of_service {s : State} {dev : BitVec 2} (h : s.addressed dev) (hs : s.inService = true) :
    exec (.rejoin dev) s = .next s.rejoining.selectAll := by
  show execRejoin dev s = _
  rw [execRejoin, State.transfer_of_addressed h, State.rejoinCommand, serviceCommand_of_service hs]
  rfl

theorem rejoining_rx (s : State) (p : Port) : s.rejoining.rx p = (s.rx p).abandon := by
  rw [← rejoinBlocks_rx, rejoining_eq]
  rfl

theorem rejoining_tx (s : State) (p : Port) : s.rejoining.tx p = s.tx p := by
  have h : s.rejoining.tx p = s.rejoinBlocks.tx p := by
    rw [rejoining_eq]
    rfl
  exact h.trans (rejoinBlocks_tx s p)

theorem rejoining_queue (s : State) (p : Port) : s.rejoining.queue p = .empty := by
  rw [← rejoinBlocks_queue s p, rejoining_eq]
  rfl

theorem rejoining_link (s : State) (p : Port) : s.rejoining.link p
    = if (s.link p).enabled then (s.link p).rejoin s.image (fibrePort p) s.now else s.link p := by
  have h : s.rejoining.link p = s.rejoinBlocks.link p := by
    rw [rejoining_eq]
    rfl
  exact h.trans (rejoinBlocks_link s p)

/-- What is heard of no one is advertised as the own entry alone (R95). -/
theorem advertise_rejoin (t : RouteComputer) (g : Image) (p : Port) :
    (t.rejoin g).advertise g p = List.replicate (t.rejoin g).entries.length (g.number, 0) := by
  refine List.eq_replicate_iff.mpr ⟨List.length_map _, fun b hb => ?_⟩
  obtain ⟨e, he, rfl⟩ := List.mem_map.mp hb
  obtain ⟨hown, rfl⟩ := isOwn_of_mem_rejoin he
  rw [if_pos hown]
  rfl

/-- The HAIL that REJOIN sends on an enabled port with an idle line. -/
theorem rejoining_buildHail {s : State} {p : Port} (h : (s.link p).enabled = true) (n : Byte) :
    s.rejoining.buildHail p n
      = { sender := s.image.number, senderPort := p, senderRole := s.image.roleOf, sequence := n, departure := s.now,
          farMargin := if p = .p4 then 127 else (s.link p).near.getD (-128), senderState := .seeking, echo := none,
          vector := List.replicate (s.rc.rejoin s.image).entries.length (s.image.number, 0) } := by
  have himage : s.rejoining.image = s.image := by rw [rejoining_eq]; rfl
  have hnow : s.rejoining.now = s.now := by rw [rejoining_eq]; rfl
  have hrc : s.rejoining.rc = s.rc.rejoin s.image := by rw [rejoining_eq]
  rw [State.buildHail, rejoining_link, if_pos h, himage, hnow, hrc, advertise_rejoin]
  cases p <;> rfl

/-- Settles O43: the blocks as REJOIN leaves them, then the HAILs of the idle ports. -/
theorem rejoinReturnsTheLinksToSeeking : Obligations.RejoinReturnsTheLinksToSeeking := by
  intro dev s haddr hs hdormant hwf
  have hsent := hailsSent_selectAll (rejoining_queue s)
  have hrc : s.rejoining.selectAll.rc = s.rc.rejoin s.image := by rw [hsent.rest, rejoining_eq]
  have hfe : s.rejoining.selectAll.fe = s.rejoinBlocks.fe := by rw [hsent.rest, rejoining_eq]
  have hrx (p : Port) : s.rejoining.selectAll.rx p = (s.rx p).abandon := (hsent.rx p).trans (rejoining_rx s p)
  have hentries := rejoin_entries s.rc s.image
  refine ⟨_, exec_rejoin_of_service haddr hs, ?_, hrc ▸ rfl, ?_, fun e he => ?_, fun hend ⟨e, he, hd⟩ => ?_,
    fun i => ?_, fun p => ⟨?_, fun i h => ?_, fun a h => ?_, fun h => ?_, fun h => ?_, fun hoff => ?_,
      fun hon => ⟨fun hidle => ?_, fun hbusy => ?_⟩⟩⟩
  · refine hsent.rest.trans ?_
    rw [hrc, hfe, rejoining_eq]
  · rw [hrc, hentries, List.length_replicate]
  · rw [hrc] at he
    obtain ⟨hown, heq⟩ := isOwn_of_mem_rejoin he
    exact ⟨((CostEntry.isOwn_iff e _).mp hown).1, heq⟩
  · have hheld : e ∈ s.rc.entries.filter (fun e => decide (e.destination = s.image.number)) :=
      List.mem_filter.mpr ⟨he, decide_eq_true hd⟩
    rw [hrc, hentries, if_pos hend, Ne, List.replicate_eq_nil_iff, List.length_eq_zero_iff]
    exact List.ne_nil_of_mem hheld
  · rw [hfe, rejoinBlocks_refsOf hwf, count_queued]
  · have hq : s.rejoining.selectAll.queue p = s.rejoining.queue p := by
      rw [hsent.rest]
      rfl
    exact hq.trans (rejoining_queue s p)
  · exact (hrx p).trans (congrArg Reception.abandon h)
  · exact (hrx p).trans (congrArg Reception.abandon h)
  · exact (hrx p).trans (congrArg Reception.abandon h)
  · refine (hrx p).trans ?_
    rcases h with h | h | h | h | ⟨i, h⟩ <;> (rw [h]; rfl)
  · have hlink := (rejoining_link s p).trans (if_neg (by simp [hoff]))
    obtain ⟨htx, hkept⟩ := hsent.other p fun h => by
      rw [hlink, ((hdormant p).1 hoff).2] at h
      exact Bool.false_ne_true h.2.2
    exact ⟨hkept.trans hlink, htx.trans (rejoining_tx s p)⟩
  · have hlink := (rejoining_link s p).trans (if_pos hon)
    obtain ⟨htx, hdeparted⟩ := hsent.sent p (by cases p <;> decide) ((rejoining_tx s p).trans hidle)
      (by rw [hlink]; rfl)
    rw [rejoining_buildHail hon, ← hrc] at htx
    rw [hlink] at htx hdeparted
    refine ⟨hdeparted.trans ?_, htx⟩
    cases p <;> rfl
  · have hlink := (rejoining_link s p).trans (if_pos hon)
    obtain ⟨htx, hkept⟩ := hsent.other p fun h => hbusy ((rejoining_tx s p).symm.trans h.2.1)
    refine ⟨(hkept.trans hlink).trans ?_, htx.trans (rejoining_tx s p)⟩
    cases p <;> rfl

end Sys2Proof.Machine


/-! A neighbour's cost vector in the Cost Table: entries found or created, and the port's heard costs replaced (chapter 5,
section 5.2). -/

namespace Sys2Proof.Machine

/-! ### The destinations a vector brings in -/

/-- The destinations that the table holds. -/
def RouteComputer.held (t : RouteComputer) : List Nat := t.entries.map CostEntry.destination

/-- Of the destinations named, those that have no entry, but for this station (R86). -/
def RouteComputer.fresh (t : RouteComputer) (g : Image) (ds : List Nat) : List Nat :=
  ds.filter (fun d => decide (d ∉ t.held) && decide (d ≠ g.number))

theorem RouteComputer.entry?_isSome_iff (t : RouteComputer) (d : Nat) : (t.entry? d).isSome = true ↔ d ∈ t.held := by
  simp [RouteComputer.entry?, RouteComputer.held]

/-- What the destinations named do to the table: each fresh one gets an entry while there is room (R86). -/
structure RouteComputer.Entered (t t' : RouteComputer) (g : Image) (ds : List Nat) : Prop where
  mem_held (d : Nat) : d ∈ t'.held ↔ d ∈ t.held ∨ d ∈ (t.fresh g ds).take (16 - t.held.length)
  length : t'.held.length = t.held.length + min (16 - t.held.length) (t.fresh g ds).length
  full : t'.full = (t.full || decide (16 - t.held.length < (t.fresh g ds).length))
  entries : ∀ e ∈ t'.entries, e ∈ t.entries ∨ e.destination ∉ t.held ∧ e = .new e.destination

section
variable {t : RouteComputer} {g : Image} {d : Nat} {ds : List Nat}

theorem fresh_cons_of_known (h : d ∈ t.held ∨ d = g.number) : t.fresh g (d :: ds) = t.fresh g ds :=
  List.filter_cons_of_neg (by simpa using fun hn => h.resolve_left hn)

theorem fresh_cons_of_fresh (h : d ∉ t.held) (hg : d ≠ g.number) : t.fresh g (d :: ds) = d :: t.fresh g ds :=
  List.filter_cons_of_pos (by simp [h, hg])

theorem enter_of_known (h : d ∈ t.held ∨ d = g.number) : t.enter g d = t := by
  rw [RouteComputer.enter]
  by_cases hd : d ∈ t.held
  · exact if_pos ((t.entry?_isSome_iff d).mpr hd)
  · rw [if_neg (mt (t.entry?_isSome_iff d).mp hd), if_pos (h.resolve_left hd)]

theorem enter_of_room (h : d ∉ t.held) (hg : d ≠ g.number) (hroom : t.held.length < 16) :
    t.enter g d = { t with entries := insertEntry (.new d) t.entries } := by
  rw [RouteComputer.held, List.length_map] at hroom
  rw [RouteComputer.enter, if_neg (mt (t.entry?_isSome_iff d).mp h), if_neg hg]
  exact if_pos hroom

theorem enter_of_full (h : d ∉ t.held) (hg : d ≠ g.number) (hfull : 16 ≤ t.held.length) :
    t.enter g d = { t with full := true } := by
  rw [RouteComputer.held, List.length_map] at hfull
  rw [RouteComputer.enter, if_neg (mt (t.entry?_isSome_iff d).mp h), if_neg hg]
  exact if_neg (Nat.not_lt.mpr hfull)

theorem mem_held_insert (t : RouteComputer) (d x : Nat) :
    x ∈ RouteComputer.held { t with entries := insertEntry (.new d) t.entries } ↔ x = d ∨ x ∈ t.held := by
  simp only [RouteComputer.held, List.mem_map, mem_insertEntry, or_and_right, exists_or, exists_eq_left]
  exact or_congr_left eq_comm

theorem length_held_insert (t : RouteComputer) (d : Nat) :
    (RouteComputer.held { t with entries := insertEntry (.new d) t.entries }).length = t.held.length + 1 := by
  simp only [RouteComputer.held, List.length_map, length_insertEntry]

/-- The fresh ones of the destinations that follow are the same once another has its entry. -/
theorem fresh_insert (hd : d ∉ ds) :
    RouteComputer.fresh { t with entries := insertEntry (.new d) t.entries } g ds = t.fresh g ds := by
  refine List.filter_congr fun x hx => ?_
  have hne : x ≠ d := fun e => hd (e ▸ hx)
  simp only [mem_held_insert, hne, false_or]

theorem RouteComputer.Entered.cons_room {t' : RouteComputer} (hd : d ∉ t.held) (hg : d ≠ g.number) (hds : d ∉ ds)
    (hroom : t.held.length < 16)
    (h : RouteComputer.Entered { t with entries := insertEntry (.new d) t.entries } t' g ds) :
    t.Entered t' g (d :: ds) := by
  obtain ⟨hmem, hlength, hfull, hentries⟩ := h
  rw [fresh_insert hds, length_held_insert] at hlength hfull
  have htake : (t.fresh g (d :: ds)).take (16 - t.held.length)
      = d :: (t.fresh g ds).take (16 - (t.held.length + 1)) := by
    rw [fresh_cons_of_fresh hd hg, show 16 - t.held.length = 16 - (t.held.length + 1) + 1 by omega]
    rfl
  refine ⟨fun x => ?_, ?_, ?_, fun e he => ?_⟩
  · rw [hmem, fresh_insert hds, length_held_insert, mem_held_insert, htake, List.mem_cons]
    tauto
  · rw [hlength, fresh_cons_of_fresh hd hg, List.length_cons]
    omega
  · rw [hfull, fresh_cons_of_fresh hd hg, List.length_cons]
    exact congrArg (t.full || ·) (decide_eq_decide.mpr (by omega))
  · rcases hentries e he with hold | ⟨hnot, hnew⟩
    · rcases (mem_insertEntry _ _ _).mp hold with rfl | hold
      · exact .inr ⟨hd, rfl⟩
      · exact .inl hold
    · exact .inr ⟨fun hin => hnot ((mem_held_insert t d _).mpr (.inr hin)), hnew⟩

theorem RouteComputer.Entered.cons_full {t' : RouteComputer} (hd : d ∉ t.held) (hg : d ≠ g.number) (hfull : 16 ≤ t.held.length)
    (h : RouteComputer.Entered { t with full := true } t' g ds) : t.Entered t' g (d :: ds) := by
  obtain ⟨hmem, hlength, hset, hentries⟩ := h
  have hnone : 16 - t.held.length = 0 := Nat.sub_eq_zero_of_le hfull
  refine ⟨fun x => (hmem x).trans ?_, hlength.trans ?_, hset.trans ?_, hentries⟩
  · show x ∈ t.held ∨ x ∈ (t.fresh g ds).take (16 - t.held.length) ↔ _
    rw [hnone, List.take_zero, List.take_zero]
  · show t.held.length + min (16 - t.held.length) (t.fresh g ds).length = _
    rw [hnone, Nat.zero_min, Nat.zero_min]
  · rw [fresh_cons_of_fresh hd hg, hnone, List.length_cons]
    simp

end

theorem entered_foldl (g : Image) : ∀ (ds : List Nat) (t : RouteComputer), ds.Nodup →
    t.Entered (ds.foldl (fun t d => t.enter g d) t) g ds
  | [], t, _ => ⟨fun d => by simp [RouteComputer.fresh], by simp [RouteComputer.fresh],
      by simp [RouteComputer.fresh], fun e he => .inl he⟩
  | d :: ds, t, h => by
    obtain ⟨hd, hds⟩ := List.nodup_cons.mp h
    rw [List.foldl_cons]
    by_cases hknown : d ∈ t.held ∨ d = g.number
    · have hrest := entered_foldl g ds t hds
      rw [enter_of_known hknown]
      obtain ⟨hmem, hlength, hfull, hentries⟩ := hrest
      rw [← fresh_cons_of_known hknown (ds := ds)] at hlength hfull
      exact ⟨fun x => by rw [hmem, fresh_cons_of_known hknown], hlength, hfull, hentries⟩
    · obtain ⟨hnot, hg⟩ := not_or.mp hknown
      rcases Nat.lt_or_ge t.held.length 16 with hroom | hfull
      · rw [enter_of_room hnot hg hroom]
        exact (entered_foldl g ds _ hds).cons_room hnot hg hd hroom
      · rw [enter_of_full hnot hg hfull]
        exact (entered_foldl g ds _ hds).cons_full hnot hg hfull

/-! ### The heard costs -/

section
variable {v : List (Nat × Nat)} {d : Nat}

/-- A vector names each destination once: its cost is the one it names. -/
theorem vectorCost_of_mem (hv : (v.map Prod.fst).Nodup) {c : Nat} (h : (d, c) ∈ v) : vectorCost v d = c := by
  cases hfind : v.find? (fun x => decide (x.1 = d)) with
  | none => exact absurd (decide_eq_true rfl) (List.find?_eq_none.mp hfind _ h)
  | some x =>
    have hx : x.1 = d := by simpa using List.find?_some hfind
    have heq : x = (d, c) := List.inj_on_of_nodup_map hv (List.mem_of_find?_eq_some hfind) h hx
    rw [vectorCost, hfind, heq]

theorem vectorCost_of_not_mem (h : ∀ c, (d, c) ∉ v) : vectorCost v d = 16777215 := by
  have hfind : v.find? (fun x => decide (x.1 = d)) = none := by
    refine List.find?_eq_none.mpr fun x hx hd => h x.2 ?_
    rw [← of_decide_eq_true hd]
    exact hx
  rw [vectorCost, hfind]
  rfl

end

/-- The destinations of the table that has heard a vector are those of the table that entered it. -/
theorem take_spec (t : RouteComputer) (g : Image) (p : Port) {v : List (Nat × Nat)} (hv : (v.map Prod.fst).Nodup) :
    ∃ t', t.Entered t' g (v.map Prod.fst) ∧ t.take g p v = t'.hear p v :=
  ⟨_, entered_foldl g (v.map Prod.fst) t hv, by rw [RouteComputer.take, List.foldl_map]⟩

end Sys2Proof.Machine


/-! HAIL_ARRIVAL_COMPLETION of a neighbour's HAIL (chapter 3, sections 3.3 and 3.5; chapter 4, section 4.6; chapter 5,
sections 5.2 and 5.5): the link record, the reports, and the event as one. -/

namespace Sys2Proof.Machine

/-! ### Reports one after the other -/

theorem Statistics.count_raiseBit (n : Statistics) (b : Nat) (c : CounterName) :
    ({ n with notices := n.notices.raiseBit .linkDown b } : Statistics).count c
      = { n.count c with notices := (n.count c).notices.raiseBit .linkDown b } := by
  have hc : Statistics.counter { n with notices := n.notices.raiseBit .linkDown b } c = n.counter c :=
    Statistics.counter_notices n _ c
  simp only [Statistics.count, hc]
  cases (n.counter c).wraps <;> cases c <;> rfl

theorem foldl_count_raiseBit (p : Port) (b : Nat) (l : List PortCounter) (n : Statistics) :
    l.foldl (fun n c => n.count (.port p c)) { n with notices := n.notices.raiseBit .linkDown b }
      = { l.foldl (fun n c => n.count (.port p c)) n with
          notices := (l.foldl (fun n c => n.count (.port p c)) n).notices.raiseBit .linkDown b } := by
  induction l generalizing n with
  | nil => rfl
  | cons c l ih =>
    rw [List.foldl_cons, List.foldl_cons, Statistics.count_raiseBit]
    exact ih (n.count (.port p c))

/-- Two reports, the first without LINK_UP and at most one with LINK_DOWN, are one. -/
theorem Statistics.reported_reported (n : Statistics) (p : Port) (c c' : List PortCounter) {l l' : Bool}
    (h : l = true → l' = false) (e : Bool) :
    (n.reported p c l false).reported p c' l' e = n.reported p (c ++ c') (l || l') e := by
  cases l with
  | false =>
    simp only [Statistics.reported, List.foldl_append]
    rfl
  | true =>
    obtain rfl := h rfl
    simp only [Statistics.reported, List.foldl_append, if_true, Bool.false_eq_true, if_false, Bool.true_or,
      foldl_count_raiseBit]

theorem reported_reported (s : State) (p : Port) (r r' : LinkRecord) (rc rc' : RouteComputer)
    (c c' : List PortCounter) {l l' : Bool} (h : l = true → l' = false) (e : Bool) :
    (s.reported p r rc c l false).reported p r' rc' c' l' e = s.reported p r' rc' (c ++ c') (l || l') e := by
  rw [reported_eq, reported_eq, reported_eq, ← Statistics.reported_reported s.snu p c c' h e]
  simp only [State.setLink, PerPort.set_set]

/-- A transition of one port's record, as a report. -/
theorem transition_reported (s : State) (p : Port) (f : LinkRecord → LinkRecord) :
    s.transition p f = s.reported p (f (s.link p)) s.rc (fadeCounted (s.link p).state (f (s.link p)).state)
      ((s.link p).state.leaves (f (s.link p)).state) ((f (s.link p)).state.leaves (s.link p).state) :=
  report_reported s p (f (s.link p)) s.rc (s.link p).state

/-- The same on the state that a report leaves. -/
theorem transition_of_reported (s : State) (p : Port) (r : LinkRecord) (rc : RouteComputer) (c : List PortCounter)
    {l : Bool} (f : LinkRecord → LinkRecord) (h : l = true → r.state.usable = false) :
    (s.reported p r rc c l false).transition p f = s.reported p (f r) rc (c ++ fadeCounted r.state (f r).state)
      (l || r.state.leaves (f r).state) ((f r).state.leaves r.state) := by
  have hlink := (reported_link s p r rc c l false p).trans (if_pos rfl)
  have hrc : (s.reported p r rc c l false).rc = rc := by rw [reported_eq]
  rw [transition_reported, hlink, hrc, reported_reported]
  intro hl
  rw [LinkState.leaves_eq, h hl, Bool.false_and]

/-- What a sample counts. -/
def outlierCounted (b : Bool) : List PortCounter := if b then [.delayOutlier] else []

theorem countIf_reported (s : State) (p : Port) (r : LinkRecord) (b : Bool) :
    (s.setLink p r).countIf b (.port p .delayOutlier) = s.reported p r s.rc (outlierCounted b) false false := by
  cases b <;> rfl

theorem takeFromNeighbour_of_reported (s : State) (p : Port) (r : LinkRecord) (rc : RouteComputer)
    (c : List PortCounter) (l : Bool) (a : Time) (h : Hail) :
    (s.reported p r rc c l false).takeFromNeighbour p a h
      = s.reported p (r.take s.image (fibrePort p) s.now a h).1 rc
          (c ++ outlierCounted (r.take s.image (fibrePort p) s.now a h).2) l false := by
  have hlink := (reported_link s p r rc c l false p).trans (if_pos rfl)
  have hrc : (s.reported p r rc c l false).rc = rc := by rw [reported_eq]
  have himage : (s.reported p r rc c l false).image = s.image := by rw [reported_eq]; rfl
  have hnow : (s.reported p r rc c l false).now = s.now := by rw [reported_eq]; rfl
  rw [State.takeFromNeighbour, hlink, himage, hnow, countIf_reported, hrc, reported_reported _ _ _ _ _ _ _ _ (fun _ => rfl),
    Bool.or_false]

/-! ### The record -/

/-- The HAIL comes from the recorded neighbour, or none is recorded (R46, R48, R49). -/
abbrev LinkRecord.sameNeighbour (r : LinkRecord) (h : Hail) : Prop :=
  r.neighbour = none ∨ r.neighbour = some (h.sender, h.senderPort)

theorem identify_of_same {r : LinkRecord} {h : Hail} (hsame : r.sameNeighbour h) (fibre : Bool) (now : Time) :
    r.identify fibre now h = { r with neighbour := some (h.sender, h.senderPort) } := by
  rcases hsame with hn | hn
  · rw [LinkRecord.identify, hn]
    rfl
  · have hkept : r.identify fibre now h = r := by
      rw [LinkRecord.identify, hn]
      exact if_pos rfl
    rw [hkept, ← hn]

theorem identify_of_changed {r : LinkRecord} {h : Hail} (hsame : ¬r.sameNeighbour h) (fibre : Bool) (now : Time) :
    r.identify fibre now h
      = { (r.forget fibre).toSeeking now with neighbour := some (h.sender, h.senderPort) } := by
  obtain ⟨hnone, hne⟩ := not_or.mp hsame
  obtain ⟨n, hn⟩ := Option.ne_none_iff_exists'.mp hnone
  rw [LinkRecord.identify, hn]
  exact if_neg fun e => hne (hn.trans (congrArg some e))

/-- A sample reads the last sent hail sequence, the estimate and its run alone. -/
theorem sample_congr {r x : LinkRecord} (hsent : x.lastSent = r.lastSent) (hdelay : x.delay = r.delay)
    (hrun : x.outlierRun = r.outlierRun) (g : Image) (a : Time) (h : Hail) :
    (x.sample g a h).2 = (r.sample g a h).2 ∧ (x.sample g a h).1.delay = (r.sample g a h).1.delay
    ∧ (x.sample g a h).1.outlierRun = (r.sample g a h).1.outlierRun := by
  simp only [LinkRecord.sample, LinkRecord.filter, hsent, hdelay, hrun]
  repeat' split
  all_goals simp [hdelay, hrun]

/-- The record that the HAIL's sample is filtered into: a change of neighbour forgets the old estimate (R49, R56). -/
def LinkRecord.sampled (r : LinkRecord) (h : Hail) : LinkRecord :=
  if r.sameNeighbour h then r else { r with delay := none, outlierRun := 0 }

section
variable (r : LinkRecord) (p : Port) (now : Time) (h : Hail)

theorem identify_eq : r.identify (fibrePort p) now h
    = (let m := r.identify (fibrePort p) now h
       { r with neighbour := some (h.sender, h.senderPort), neighbourRole := m.neighbourRole,
                neighbourState := m.neighbourState, lastHail := m.lastHail, delay := (r.sampled h).delay,
                outlierRun := (r.sampled h).outlierRun, silence := m.silence, far := if p = .p4 then r.far else m.far,
                state := m.state, fadeCause := m.fadeCause, stateTimer := m.stateTimer,
                lastChange := m.lastChange }) := by
  by_cases hsame : r.sameNeighbour h
  · rw [identify_of_same hsame, LinkRecord.sampled, if_pos hsame]
    simp
  · rw [identify_of_changed hsame, LinkRecord.sampled, if_neg hsame]
    rcases (r.forget (fibrePort p)).toSeeking_cases now with ⟨-, e⟩ | ⟨-, -, e⟩ <;> rw [e] <;> cases p <;> rfl

/-- A change of neighbour sends the port to SEEKING, but a drained or seeking one stays (R49). -/
theorem identify_state (fibre : Bool) :
    (r.sameNeighbour h ∨ r.state = .drained ∨ r.state = .seeking →
      (r.identify fibre now h).state = r.state ∧ (r.identify fibre now h).fadeCause = r.fadeCause
      ∧ (r.identify fibre now h).stateTimer = r.stateTimer ∧ (r.identify fibre now h).lastChange = r.lastChange)
    ∧ (¬r.sameNeighbour h → r.state ≠ .drained → r.state ≠ .seeking →
      (r.identify fibre now h).state = .seeking ∧ (r.identify fibre now h).fadeCause = none
      ∧ (r.identify fibre now h).stateTimer = none ∧ (r.identify fibre now h).lastChange = now) := by
  by_cases hsame : r.sameNeighbour h
  · rw [identify_of_same hsame]
    exact ⟨fun _ => ⟨rfl, rfl, rfl, rfl⟩, fun hn => absurd hsame hn⟩
  · rw [identify_of_changed hsame]
    have hstate : (r.forget fibre).state = r.state := rfl
    rcases (r.forget fibre).toSeeking_cases now with ⟨hs, e⟩ | ⟨hd, hk, e⟩ <;> rw [e]
    · exact ⟨fun _ => ⟨rfl, rfl, rfl, rfl⟩, fun _ hd hk => (hs.elim hd hk).elim⟩
    · exact ⟨fun hs => (hs.elim hsame fun hs => hs.elim hd hk).elim, fun _ _ _ => ⟨rfl, rfl, rfl, rfl⟩⟩

/-- The identification of a HAIL's sender takes no port into service and none into FADED. -/
theorem identify_reports (fibre : Bool) :
    (r.identify fibre now h).state.leaves r.state = false ∧ fadeCounted r.state (r.identify fibre now h).state = [] := by
  obtain ⟨hkept, hseek⟩ := identify_state r now h fibre
  by_cases hs : r.sameNeighbour h ∨ r.state = .drained ∨ r.state = .seeking
  · obtain ⟨hstate, -⟩ := hkept hs
    rw [hstate]
    exact ⟨Bool.and_not_self _, if_neg fun hf => hf.2 hf.1⟩
  · obtain ⟨hsame, hs⟩ := not_or.mp hs
    obtain ⟨hd, hk⟩ := not_or.mp hs
    obtain ⟨hstate, -⟩ := hseek hsame hd hk
    rw [hstate]
    exact ⟨rfl, if_neg fun hf => absurd hf.1 nofun⟩

/-- The record after steps 1 and 2 of R46, field by field. -/
theorem identify_take_eq (g : Image) (a : Time) :
    let m := r.identify (fibrePort p) now h
    let r1 := (m.take g (fibrePort p) now a h).1
    r1 = { r with neighbour := some (h.sender, h.senderPort), neighbourRole := some h.senderRole,
                  neighbourState := some h.senderState, silence := some now,
                  far := if p = .p4 then r.far else some h.farMargin,
                  lastHail := some ⟨h.sequence, h.departure, a⟩,
                  delay := ((r.sampled h).sample g a h).1.delay,
                  outlierRun := ((r.sampled h).sample g a h).1.outlierRun,
                  state := m.state, fadeCause := m.fadeCause, stateTimer := m.stateTimer, lastChange := m.lastChange }
    ∧ (m.take g (fibrePort p) now a h).2 = ((r.sampled h).sample g a h).2 := by
  have hm := identify_eq r p now h
  dsimp only at hm ⊢
  generalize r.identify (fibrePort p) now h = m at hm ⊢
  have hsent : (r.sampled h).lastSent = r.lastSent := by
    unfold LinkRecord.sampled
    split <;> rfl
  obtain ⟨hout, hdelay, hrun⟩ := sample_congr (r := r.sampled h)
    (x := { m with silence := some now, neighbourRole := some h.senderRole, neighbourState := some h.senderState,
                   far := if fibrePort p then m.far else some h.farMargin })
    ((congrArg (·.lastSent) hm).trans hsent.symm) (congrArg (·.delay) hm) (congrArg (·.outlierRun) hm) g a h
  refine ⟨?_, hout⟩
  refine (LinkRecord.take_frame m g (fibrePort p) now a h).trans ?_
  rw [show (m.take g (fibrePort p) now a h).1.delay = _ from hdelay,
    show (m.take g (fibrePort p) now a h).1.outlierRun = _ from hrun, hm]
  cases p <;> rfl

end

end Sys2Proof.Machine


/-! HAIL_ARRIVAL_COMPLETION of a neighbour's HAIL as one link event (chapter 3, section 3.3; chapter 4, section 4.6). -/

namespace Sys2Proof.Machine

/-! ### The event -/

theorem reported_link_self (s : State) (p : Port) (r : LinkRecord) (rc : RouteComputer) (c : List PortCounter)
    (l e : Bool) : (s.reported p r rc c l e).link p = r :=
  (reported_link s p r rc c l e p).trans (if_pos rfl)

theorem reported_image (s : State) (p : Port) (r : LinkRecord) (rc : RouteComputer) (c : List PortCounter)
    (l e : Bool) : (s.reported p r rc c l e).image = s.image := by
  rw [reported_eq]
  rfl

theorem reported_now (s : State) (p : Port) (r : LinkRecord) (rc : RouteComputer) (c : List PortCounter)
    (l e : Bool) : (s.reported p r rc c l e).now = s.now := by
  rw [reported_eq]
  rfl

theorem take_state (r : LinkRecord) (g : Image) (fibre : Bool) (now a : Time) (h : Hail) :
    (r.take g fibre now a h).1.state = r.state := by
  rw [LinkRecord.take_frame]

section
variable (s : State) (p : Port) (a : Time) (h : Hail)

/-- The record after step 1 of R46. -/
def State.identified : LinkRecord := (s.link p).identify (fibrePort p) s.now h

/-- The record after step 2 of R46, and whether its sample was an outlier. -/
def State.taken : LinkRecord × Bool := (s.identified p h).take s.image (fibrePort p) s.now a h

/-- The record after step 3 of R46. -/
def State.evaluated : LinkRecord := (s.taken p a h).1.evaluate s.image s.now false

/-- What a neighbour's HAIL counts behind HAIL_RX. -/
def State.hailCounted : List PortCounter :=
  outlierCounted (s.taken p a h).2 ++ fadeCounted (s.identified p h).state (s.evaluated p a h).state

/-- One of the steps took the port out of the usable states. -/
def State.hailLeaves : Bool :=
  (s.link p).state.leaves (s.identified p h).state || (s.identified p h).state.leaves (s.evaluated p a h).state

theorem taken_state : (s.taken p a h).1.state = (s.identified p h).state := take_state _ _ _ _ _ _

theorem identify_transition :
    s.transition p (fun r => r.identify (fibrePort p) s.now h)
      = s.reported p (s.identified p h) s.rc [] ((s.link p).state.leaves (s.identified p h).state) false := by
  obtain ⟨henters, hfade⟩ := identify_reports (s.link p) s.now h (fibrePort p)
  rw [transition_reported, henters, hfade]
  rfl

/-- Steps 1 to 3 of R46 as one report. -/
theorem neighbourHail_reports :
    ((s.transition p (fun r => r.identify (fibrePort p) s.now h)).takeFromNeighbour p a h).evaluate p false
      = s.reported p (s.evaluated p a h) s.rc (s.hailCounted p a h) (s.hailLeaves p a h)
          ((s.evaluated p a h).state.leaves (s.identified p h).state) := by
  have htaken := takeFromNeighbour_of_reported s p (s.identified p h) s.rc []
    ((s.link p).state.leaves (s.identified p h).state) a h
  rw [identify_transition, htaken, State.evaluate, reported_image, reported_now, transition_of_reported,
    show ((s.identified p h).take s.image (fibrePort p) s.now a h).1.state = _ from taken_state s p a h]
  · rfl
  · intro hl
    rw [take_state]
    exact (Bool.not_eq_true' _).mp (Bool.and_eq_true_iff.mp hl).2

theorem neighbourHail_event : s.neighbourHail p a h
    = s.afterLinkEvent p (s.evaluated p a h) (s.rc.take s.image p h.vector) (s.hailCounted p a h) true
        (s.hailLeaves p a h) ((s.evaluated p a h).state.leaves (s.identified p h).state) := by
  have hcosts : (s.reported p (s.evaluated p a h) s.rc (s.hailCounted p a h) (s.hailLeaves p a h)
        ((s.evaluated p a h).state.leaves (s.identified p h).state)).takeCosts p h
      = (s.reported p (s.evaluated p a h) (s.rc.take s.image p h.vector) (s.hailCounted p a h) (s.hailLeaves p a h)
        ((s.evaluated p a h).state.leaves (s.identified p h).state)).recompute := by
    rw [State.takeCosts, reported_image, reported_eq, reported_eq]
  rw [State.neighbourHail, neighbourHail_reports, hcosts, identify_transition, reported_link_self, reported_link_self,
    afterLinkEvent_eq]
  rfl

end

/-- A valid HAIL of another station, counted, as one link event. -/
theorem neighbourHail_completion {s : State} {p : Port} {f : Frame} {a : Time} {h : Hail} (hrx : s.rx p = .hail a)
    (hcheck : checkHail f = some h) (hsender : h.sender ≠ s.image.number) :
    exec (.hailArrivalCompletion p f) s = .next ((s.setRx p .idle).afterLinkEvent p (s.evaluated p a h)
      (s.rc.take s.image p h.vector) (.hailRx :: s.hailCounted p a h) true (s.hailLeaves p a h)
      ((s.evaluated p a h).state.leaves (s.identified p h).state)) := by
  have hevent : ((s.setRx p .idle).count (.port p .hailRx)).neighbourHail p a h
      = (s.setRx p .idle).afterLinkEvent p (s.evaluated p a h) (s.rc.take s.image p h.vector)
        (.hailRx :: s.hailCounted p a h) true (s.hailLeaves p a h)
        ((s.evaluated p a h).state.leaves (s.identified p h).state) := neighbourHail_event _ p a h
  show execHailArrivalCompletion p f s = _
  simp only [execHailArrivalCompletion, hrx, hcheck]
  exact congrArg Host.Outcome.next ((if_neg hsender).trans hevent)

/-! ### Counters and costs of the event -/

/-- A counter of the port counts once for each time it is listed. -/
theorem foldl_count_counter (p : Port) (k : PortCounter) (l : List PortCounter) (n : Statistics) :
    (l.foldl (fun n c => n.count (.port p c)) n).counter (.port p k)
      = Counter.bump^[l.count k] (n.counter (.port p k)) := by
  induction l generalizing n with
  | nil => rfl
  | cons c l ih =>
    rw [List.foldl_cons, ih, Statistics.counter_count]
    by_cases hc : c = k
    · subst hc
      rw [if_pos rfl, List.count_cons_self, Function.iterate_succ_apply]
    · rw [if_neg (by simpa using hc), List.count_cons_of_ne hc]

theorem count_hailCounted (s : State) (p : Port) (a : Time) (h : Hail) :
    (PortCounter.hailRx :: s.hailCounted p a h).count .hailRx = 1
    ∧ (PortCounter.hailRx :: s.hailCounted p a h).count .delayOutlier = (if (s.taken p a h).2 then 1 else 0)
    ∧ (PortCounter.hailRx :: s.hailCounted p a h).count .fadeCount
      = (if (s.evaluated p a h).state = .faded ∧ (s.identified p h).state ≠ .faded then 1 else 0) := by
  unfold State.hailCounted outlierCounted fadeCounted
  by_cases hfade : (s.evaluated p a h).state = .faded ∧ (s.identified p h).state ≠ .faded
  · simp only [if_pos hfade]
    cases (s.taken p a h).2 <;> exact ⟨rfl, rfl, rfl⟩
  · simp only [if_neg hfade]
    cases (s.taken p a h).2 <;> exact ⟨rfl, rfl, rfl⟩

/-- The table that a vector was heard into, after its recompute: the destinations and the flag are those of the table that
the vector was entered into, and so are the heard costs of the other ports. -/
theorem recompute_hear (t : RouteComputer) (g : Image) (lm : PerPort LinkRecord) (p : Port) (v : List (Nat × Nat)) :
    ((t.hear p v).recompute g lm).held = t.held ∧ ((t.hear p v).recompute g lm).full = t.full
    ∧ ∀ e ∈ ((t.hear p v).recompute g lm).entries, ∃ e0 ∈ t.entries, e0.destination = e.destination
      ∧ e.heard = e0.heard.set p (vectorCost v e.destination) := by
  refine ⟨?_, rfl, fun e he => ?_⟩
  · simp only [RouteComputer.held, RouteComputer.recompute, RouteComputer.hear, List.map_map]
    exact List.map_congr_left fun e _ => CostEntry.recompute_destination _ _ _
  · simp only [RouteComputer.recompute, RouteComputer.hear, List.map_map, List.mem_map, Function.comp_apply] at he
    obtain ⟨e0, he0, rfl⟩ := he
    rw [CostEntry.recompute_heard, CostEntry.recompute_destination]
    exact ⟨e0, he0, rfl, rfl⟩

/-- A valid HAIL names each destination once. -/
theorem vector_nodup {f : Frame} {h : Hail} (hcheck : checkHail f = some h) : (h.vector.map Prod.fst).Nodup := by
  obtain ⟨-, -, hread⟩ := (checkHail_eq_some_iff f h).mp hcheck
  obtain ⟨-, -, -, -, -, -, -, -, -, -, -, -, hrising, -⟩ := (Hail.read_eq_some_iff _ h).mp hread
  exact List.pairwise_map.mpr (hrising.imp fun hlt => Nat.ne_of_lt hlt)

/-! ### The obligation -/

/-- Settles O22: the HAIL as one link event on the record of steps 1 to 3 and the costs of step 4 of R46. -/
theorem neighbourHailUpdatesRecordAndCosts : Obligations.NeighbourHailUpdatesRecordAndCosts := by
  intro p f s a h hrx hcheck hsender
  obtain ⟨t, ht⟩ : ∃ t, (s.setRx p .idle).LinkEvent t p (s.evaluated p a h) (s.rc.take s.image p h.vector)
    (.hailRx :: s.hailCounted p a h) true (s.hailLeaves p a h)
    ((s.evaluated p a h).state.leaves (s.identified p h).state) := ⟨_, ⟨rfl⟩⟩
  have hwork := ht.lineWork
  have hmid := taken_state s p a h
  have hnew : (t.link p).state = (s.evaluated p a h).state := by rw [ht.link_self.1]
  obtain ⟨hhailRx, houtlier, hfade⟩ := count_hailCounted s p a h
  obtain ⟨hrecord, hsample⟩ := identify_take_eq (s.link p) p s.now h s.image a
  obtain ⟨hkept, hseek⟩ := identify_state (s.link p) s.now h (fibrePort p)
  obtain ⟨t', hentered, htake⟩ := take_spec s.rc s.image p (vector_nodup hcheck)
  have hrc := ht.rc_eq
  rw [if_pos rfl, htake] at hrc
  obtain ⟨hheld, hfull, hentries⟩ := recompute_hear t' (s.setRx p .idle).image
    ((s.setRx p .idle).lm.set p (s.evaluated p a h)) p h.vector
  rw [← hrc] at hheld hfull hentries
  refine ⟨t, (s.taken p a h).1, (neighbourHail_completion hrx hcheck hsender).trans (congrArg _ ht.eq.symm), hwork.frame,
    (hwork.rx p).trans (State.setRx_rx_self s p _), fun q hq =>
    ⟨(hwork.rx q).trans (State.setRx_rx_of_ne s _ hq), ht.link_of_ne hq⟩, ⟨?_, ?_, ?_, ?_⟩, ht.link_self,
    fun e he => ?_, ht.settled rfl, ?_, ?_, ?_⟩
  · rw [show (s.taken p a h).1 = _ from hrecord]
    rfl
  · intro hs
    rw [show (s.taken p a h).1 = _ from hrecord]
    exact hkept hs
  · intro hsame hd hk
    rw [show (s.taken p a h).1 = _ from hrecord]
    exact hseek hsame hd hk
  · show t.snu.counter (.port p .delayOutlier) = if (((s.link p).sampled h).sample s.image a h).2 = true then _ else _
    rw [ht.counter rfl, foldl_count_counter, houtlier, ← hsample]
    show Counter.bump^[if (s.taken p a h).2 = true then 1 else 0] _ = if (s.taken p a h).2 = true then _ else _
    split <;> rfl
  · obtain ⟨e0, -, -, hheard⟩ := hentries e he
    rw [hheard, PerPort.get_set_self]
    exact ⟨fun c hc => vectorCost_of_mem (vector_nodup hcheck) hc, vectorCost_of_not_mem⟩
  · rw [ht.counter rfl, foldl_count_counter, hhailRx]
    rfl
  · refine ⟨fun d => ?_, ?_, hfull.trans hentered.full, fun e he hnot q hq => ?_, fun e he hin => ?_⟩
    · have hmem : d ∈ t.rc.held ↔ d ∈ t'.held := by rw [hheld]
      exact (List.mem_map.symm.trans hmem).trans (hentered.mem_held d)
    · exact (List.length_map _).symm.trans ((congrArg List.length hheld).trans hentered.length)
    · obtain ⟨e0, he0, hd, hheard⟩ := hentries e he
      rw [hheard, PerPort.get_set_of_ne _ _ hq]
      rcases hentered.entries e0 he0 with hold | ⟨-, hnew⟩
      · exact absurd (hd ▸ List.mem_map_of_mem hold) hnot
      · rw [hnew]
        exact PerPort.get_fill _ q
    · obtain ⟨e0, he0, hd, hheard⟩ := hentries e he
      rcases hentered.entries e0 he0 with hold | ⟨hnot, -⟩
      · exact ⟨e0, hold, hd, fun q hq => by rw [hheard, PerPort.get_set_of_ne _ _ hq]⟩
      · exact absurd (hd ▸ hin) hnot
  · dsimp only
    rw [hnew, hmid, Bool.and_comm (!(s.identified p h).state.usable)]
    refine ⟨⟨(s.taken p a h).2, ht.eq⟩, ht.linkDown, ht.linkUp, ?_⟩
    rw [ht.counter rfl, foldl_count_counter, hfade]
    split <;> rfl

end Sys2Proof.Machine
